-- ==== Sys2Proof/Word.lean ====
section
/-! DEFINITION. The word types of the C416 and its index types (spec 00_scope, Key figures and Conventions). -/

namespace Sys2Proof

/-- One byte of the link. -/
abbrev Byte := BitVec 8

/-- Machine time: a 32-bit count of milliseconds that wraps (R126). -/
abbrev Time := BitVec 32

/-- The host's name for a step, 0-65,535 (R34). -/
abbrev Tag := BitVec 16

/-- The id of a notice record (R90). -/
abbrev NoticeId := BitVec 16

/-- An actuator, 0-15. -/
abbrev ActIx := Fin 16

/-- A lane, 0-3. -/
abbrev LaneIx := Fin 4

/-- A bank of eight lines and four actuators, 0-3. -/
abbrev BankIx := Fin 4

/-- A sensor input, 0-31. -/
abbrev InputIx := Fin 32

/-- A mark, 0-7 (R80). -/
abbrev MarkIx := Fin 8

/-- A timer of R128: not running, or the number of ticks still to come.
`some 0`: the tick of its expiry has come and the expiry has not been taken yet (log 2). -/
abbrev Timer := Option Nat

end Sys2Proof
end

