-- ==== Sys2Proof/Syntax.lean ====
section
/-! DEFINITION. The commands of the C416: one constructor for each row of spec/opcode_table.json, in the table's order. -/

namespace Sys2Proof

/-- One command: an event at the part.  A request row is the good frame of its kind, completed at the receiver, with
its sequence number and its payload bytes (log 7). -/
inductive Instr where
  /-- POWER_ON (R147): power is applied. -/
  | powerOn
  /-- RESET_ASSERTED (R147): RESET# goes low. -/
  | resetAsserted
  /-- RESET_END (R147): the reset in progress ends; BAUD1:0 is sampled at `straps`. -/
  | resetEnd (straps : BitVec 2)
  /-- TICK (R126): the 1 ms tick. -/
  | tick
  /-- AT_TIME_REACHED (R131): the time of the step at `place` of `lane` (0 is the head) is tested. -/
  | atTimeReached (lane : LaneIx) (place : Nat)
  /-- STEP_START (R78): the start arbiter judges its queue. -/
  | stepStart
  /-- GAP_TIMER_EXPIRY (R13). -/
  | gapTimerExpiry (act : ActIx)
  /-- TRAVEL_TIMER_EXPIRY (R18, R19). -/
  | travelTimerExpiry (act : ActIx)
  /-- SETTLE_TIMER_EXPIRY (R17). -/
  | settleTimerExpiry (act : ActIx)
  /-- PULSE_TIMER_EXPIRY (R14). -/
  | pulseTimerExpiry (act : ActIx)
  /-- DELAY_TIMER_EXPIRY (R44). -/
  | delayTimerExpiry (lane : LaneIx)
  /-- START_LIMIT_EXPIRY (R85). -/
  | startLimitExpiry (lane : LaneIx)
  /-- INPUT_RAW_CHANGE (R121): the pin of `input` takes `level`. -/
  | inputRawChange (input : InputIx) (level : Bool)
  /-- STABILITY_TIMER_EXPIRY (R121). -/
  | stabilityTimerExpiry (input : InputIx)
  /-- HALT_PIN_CHANGE (R124): the HALT# pin takes `level` (true is high). -/
  | haltPinChange (level : Bool)
  /-- HALT_FILTER_EXPIRY (R124). -/
  | haltFilterExpiry
  /-- DRVFLT_PIN_CHANGE (R115): the DRVFLTk# pin of `bank` takes `level` (true is high). -/
  | drvfltPinChange (bank : BankIx) (level : Bool)
  /-- DRVFLT_FILTER_EXPIRY (R115). -/
  | drvfltFilterExpiry (bank : BankIx)
  /-- RX_BYTE (R156): a character is taken on RXD, with or without a framing error (R152). -/
  | rxByte (byte : Byte) (framingError : Bool)
  /-- INTER_BYTE_GAP_EXPIRY (R157). -/
  | interByteGapExpiry
  /-- UNKNOWN_KIND (R162): a good frame whose KIND names no request. -/
  | unknownKind (seq : Byte) (kind : Byte) (payload : List Byte)
  /-- LINK_WATCH_EXPIRY (R171). -/
  | linkWatchExpiry
  /-- TX_FRAME_BEGIN (R167): an idle transmitter begins the next queued frame. -/
  | txFrameBegin
  /-- TX_FRAME_END (R165): the last byte of the frame in transmission has been sent. -/
  | txFrameEnd
  /-- RESTART0_TAKES_EFFECT (R145): the last byte of the reply to RESTART 0 has been sent; BAUD1:0 is sampled at `straps`. -/
  | restart0TakesEffect (straps : BitVec 2)
  /-- RESTART1_TAKES_EFFECT (R146): the last byte of the reply to RESTART 1 has been sent. -/
  | restart1TakesEffect
  /-- IDENT (R150), kind 01h. -/
  | ident (seq : Byte) (payload : List Byte)
  /-- STATUS (R149), kind 02h. -/
  | status (seq : Byte) (payload : List Byte)
  /-- ENTER_SETUP (R136, R137), kind 03h. -/
  | enterSetup (seq : Byte) (payload : List Byte)
  /-- ENTER_RUN (R134, R135), kind 04h. -/
  | enterRun (seq : Byte) (payload : List Byte)
  /-- RESTART (R144), kind 05h. -/
  | restart (seq : Byte) (payload : List Byte)
  /-- SET_TIME (R132), kind 06h. -/
  | setTime (seq : Byte) (payload : List Byte)
  /-- LINK_WATCH (R170), kind 07h. -/
  | linkWatch (seq : Byte) (payload : List Byte)
  /-- ACT_CONFIG (R3, R4), kind 10h. -/
  | actConfig (seq : Byte) (payload : List Byte)
  /-- ACT_READ (R33), kind 11h. -/
  | actRead (seq : Byte) (payload : List Byte)
  /-- JOG (R31), kind 12h. -/
  | jog (seq : Byte) (payload : List Byte)
  /-- ACT_CLEAR (R26), kind 13h. -/
  | actClear (seq : Byte) (payload : List Byte)
  /-- INPUT_CONFIG (R123), kind 18h. -/
  | inputConfig (seq : Byte) (payload : List Byte)
  /-- IO_READ (R125), kind 19h. -/
  | ioRead (seq : Byte) (payload : List Byte)
  /-- LINES_SET (R114), kind 1Ah. -/
  | linesSet (seq : Byte) (payload : List Byte)
  /-- BANK_CLEAR (R119), kind 1Bh. -/
  | bankClear (seq : Byte) (payload : List Byte)
  /-- LANE_CONFIG (R42), kind 20h. -/
  | laneConfig (seq : Byte) (payload : List Byte)
  /-- STEP_POST (R37, R38), kind 21h. -/
  | stepPost (seq : Byte) (payload : List Byte)
  /-- STEP_CANCEL (R61), kind 22h. -/
  | stepCancel (seq : Byte) (payload : List Byte)
  /-- LANE_FLUSH (R62), kind 23h. -/
  | laneFlush (seq : Byte) (payload : List Byte)
  /-- LANE_PAUSE (R56), kind 24h. -/
  | lanePause (seq : Byte) (payload : List Byte)
  /-- LANE_RESUME (R57, R58, R59), kind 25h. -/
  | laneResume (seq : Byte) (payload : List Byte)
  /-- LANE_ABORT (R60), kind 26h. -/
  | laneAbort (seq : Byte) (payload : List Byte)
  /-- LANE_READ (R65), kind 27h. -/
  | laneRead (seq : Byte) (payload : List Byte)
  /-- MARK_SET (R82), kind 28h. -/
  | markSet (seq : Byte) (payload : List Byte)
  /-- NOTICE_CLASS (R89), kind 30h. -/
  | noticeClass (seq : Byte) (payload : List Byte)
  /-- FLOOR_SET (R100), kind 31h. -/
  | floorSet (seq : Byte) (payload : List Byte)
  /-- PEEK (R103), kind 32h. -/
  | peek (seq : Byte) (payload : List Byte)
  /-- CLAIM (R104), kind 33h. -/
  | claim (seq : Byte) (payload : List Byte)
  /-- CLOSE (R105, R106), kind 34h. -/
  | close (seq : Byte) (payload : List Byte)
  /-- DISMISS (R107), kind 35h. -/
  | dismiss (seq : Byte) (payload : List Byte)
  deriving DecidableEq, Repr

end Sys2Proof
end

