-- ==== Sys2Proof/Config.lean ====
section
/-! DEFINITION. What the part fixes (spec 00_scope, Key figures; R150) and the one value it leaves open. -/

namespace Sys2Proof.Config

/-- Entries of the step pool (R36). -/
def poolSize : Nat := 64

/-- Steps one lane can hold (R37). -/
def laneDepth : Nat := 32

/-- Records of the pending list (R92). -/
def pendingSize : Nat := 32

/-- Records of the service stack (R98). -/
def stackSize : Nat := 8

/-- Reply slots of the transmit queue (R165). -/
def replySlots : Nat := 4

/-- Longest payload of a frame (R153). -/
def maxPayload : Nat := 120

/-- The lead byte of a frame (R153). -/
def lead : Byte := 0xC5

/-- The fixed filter of HALT#, in ms (R124). -/
def haltFilter : Nat := 2

/-- The fixed filter of DRVFLTk#, in ms (R115). -/
def drvfltFilter : Nat := 1

/-- The inter-byte gap limit, in ms (R157). -/
def byteGap : Nat := 2

/-- The speed BAUD1:0 selects, in bits per second (R151). -/
def baudRate (straps : BitVec 2) : Nat :=
  match straps.toNat with
  | 0 => 115200
  | 1 => 230400
  | 2 => 460800
  | _ => 921600

/-- FREE VALUE (log 9): in a request event that queues both a reply and an attention frame while the transmitter is
idle, whether the reply begins first.  The spec states no order; the argument numbers the draws. -/
opaque replyBeginsFirst : Nat → Bool

end Sys2Proof.Config
end

