-- ==== Sys2Proof/Machine/State.lean ====
section
/-! DEFINITION. The state of the C416, block by block (spec 00_scope, Block diagram), and its value after reset. -/

namespace Sys2Proof.Machine

/-! ## Actuator table (spec 01) -/

/-- What the two lines of an actuator drive (R1). -/
inductive Kind where
  | none | single | doubleHeld | doublePulsed | direct
  deriving DecidableEq, Repr

/-- Which of the two inputs confirm position (R1, R6). -/
inductive Sensing where
  | both | xOnly | rOnly | none
  deriving DecidableEq, Repr

/-- What the coils do at a fault or a stop (R1). -/
inductive Action where
  | hold | release
  deriving DecidableEq, Repr

/-- What the actuator does on halt or link loss (R1). -/
inductive SafeAction where
  | hold | release | extend | retract
  deriving DecidableEq, Repr

/-- One of the two ends of travel: X (extended, coil A, X sensor) or R (retracted, coil B, R sensor). -/
inductive End where
  | x | r
  deriving DecidableEq, Repr

/-- A position: an end, or U, unknown (R7). -/
inductive Position where
  | x | r | u
  deriving DecidableEq, Repr

/-- The target of a move (section 1.4). -/
inductive MoveTarget where
  | extend | retract | release
  deriving DecidableEq, Repr

/-- A guard: the other actuator and the end it must rest at (R1, R30). -/
structure Guard where
  other : ActIx
  required : End
  deriving DecidableEq, Repr

/-- The configuration record of an actuator (R1).  Durations are in ms. -/
structure ActConfig where
  kind : Kind
  sensing : Sensing
  travelLimit : Nat
  settleTime : Nat
  crossoverGap : Nat
  pulseLength : Nat
  faultAction : Action
  stopAction : Action
  safeAction : SafeAction
  guards : List Guard
  deriving DecidableEq, Repr

/-- The state of an actuator (R7). -/
inductive ActState where
  | off | rest | gap | travel | settle | faulted
  deriving DecidableEq, Repr

/-- The owner of an actuator: at most one party (R7). -/
inductive Owner where
  | none
  | lane (l : LaneIx)
  | jog
  | safe
  deriving DecidableEq, Repr

/-- Why an actuator faulted (R7, section 1.6). -/
inductive ActFault where
  | timeout | stuck | conflict | drift | drive
  deriving DecidableEq, Repr

/-- A running pulse of a DOUBLE_PULSED coil (R14): the end its coil drives toward, and the ticks left. -/
structure Pulse where
  coil : End
  left : Nat
  deriving DecidableEq, Repr

/-- One actuator record: configuration, runtime part (R7) and timers.  `lineA` and `lineB` are the commanded levels of
OUT 2n and OUT 2n+1, coil A and coil B where the line is managed (R111, R112).  The travel limit of a SETTLE actuator
is spent (R16) when its travel timer is not running. -/
structure Actuator where
  cfg : ActConfig
  state : ActState
  position : Position
  target : Option End
  owner : Owner
  fault : Option ActFault
  supervised : Bool
  entryTime : Time
  lineA : Bool
  lineB : Bool
  gapTimer : Timer
  travelTimer : Timer
  settleTimer : Timer
  pulse : Option Pulse
  deriving DecidableEq, Repr

/-! ## Lane engine and step pool (spec 02) -/

/-- The start condition of a step with its argument (R35). -/
inductive StartCond where
  | next
  | delay (d : Nat)
  | atTime (t : Time)
  | onInput (i : InputIx) (level : Bool)
  | onMark (m : MarkIx)
  deriving DecidableEq, Repr

/-- A move of a step (R34). -/
structure Move where
  act : ActIx
  target : MoveTarget
  deriving DecidableEq, Repr

/-- The progress of a step (R34). -/
inductive RunStatus where
  | held | waiting | queued | running | aborted | failed
  deriving DecidableEq, Repr

/-- The result of a move of a started step (R34). -/
inductive MoveResult where
  | pending | done | failed | stopped
  deriving DecidableEq, Repr

/-- A step held in a lane, in an entry of the pool (R34).  `results` is empty while the per-move results are absent;
`firstFailed` is the actuator of the pass's first FAILED result (R51); `reached` is the indicator of R131. -/
structure Step where
  tag : Tag
  cond : StartCond
  startLimit : Nat
  report : Bool
  recirculate : Bool
  cycleEnd : Bool
  mark : Option MarkIx
  moves : List Move
  run : RunStatus
  results : List (ActIx × MoveResult)
  startTime : Option Time
  firstFailed : Option ActIx
  reached : Bool
  deriving DecidableEq, Repr

/-- The state of a lane (R39, R40). -/
inductive LaneState where
  | empty | waiting | queued | running | paused | faulted
  deriving DecidableEq, Repr

/-- Why a lane is FAULTED (R39). -/
inductive LaneFault where
  | moveFailed | startLimit | aborted | halted
  deriving DecidableEq, Repr

/-- What a move failure does to the other moves of the step (R39). -/
inductive FaultPolicy where
  | finishOthers | stopAll
  deriving DecidableEq, Repr

/-- One lane record (R39); `steps` has the head first. -/
structure Lane where
  state : LaneState
  steps : List Step
  pausePending : Bool
  fault : Option LaneFault
  failedAct : Option ActIx
  cycleCount : BitVec 16
  delayTimer : Timer
  policy : FaultPolicy
  cycleStop : BitVec 16
  emptyNotice : Bool
  deriving DecidableEq, Repr

/-! ## Start arbiter (spec 03) -/

/-- An entry of the start queue: the lane whose head it stands for, and its start limit timer (R67). -/
structure QEntry where
  lane : LaneIx
  limit : Timer
  deriving DecidableEq, Repr

/-- The heart of the part (00_scope): actuator table, lane engine, step pool and start arbiter.
The steps of the lanes stand for the held pool entries; `poolFree` counts the free ones (R36, log 14). -/
structure Motion where
  acts : Vector Actuator 16
  lanes : Vector Lane 4
  poolFree : Nat
  queue : List QEntry
  marks : Vector Bool 8
  deriving DecidableEq, Repr

/-! ## Notice unit (spec 04) -/

/-- The ten classes of notice (R87), in the order of their codes. -/
inductive NoticeClass where
  | halt | link | drive | actFault | laneFault | watch | stepDone | jogDone | cycle | laneEmpty
  deriving DecidableEq, Repr

/-- An entry of the class table (R88). -/
structure ClassEntry where
  enabled : Bool
  priority : Fin 8
  nest : Bool
  deriving DecidableEq, Repr

/-- A notice record (R90).  `source` is the index within the class, absent for HALT and LINK; `tags` are the first and
the last tag, present for STEP_DONE and LANE_FAULT. -/
structure Notice where
  id : NoticeId
  cls : NoticeClass
  source : Option Nat
  priority : Fin 8
  nest : Bool
  detail : Byte
  firstTime : Time
  lastTime : Time
  count : Byte
  tags : Option (Tag × Tag)
  deriving DecidableEq, Repr

/-- The notice unit (R110): `waiting` is the pending list in pending order (R97), `stack` the service stack with its
top first (R98), `attn` whether ATTN# is asserted (R101). -/
structure NoticeUnit where
  classes : Vector ClassEntry 10
  waiting : List Notice
  stack : List Notice
  floor : Fin 8
  lost : Byte
  nextId : NoticeId
  attn : Bool
  deriving DecidableEq, Repr

/-! ## Input stage (spec 05) -/

/-- Which edges of a filtered level raise a WATCH notice (R120). -/
inductive Watch where
  | none | rise | fall | both
  deriving DecidableEq, Repr

/-- One sensor input (R120): `raw` is the pin level, `filtered` the level every other block reads. -/
structure Input where
  filterTime : Byte
  invert : Bool
  watch : Watch
  raw : Bool
  filtered : Bool
  timer : Timer
  deriving DecidableEq, Repr

/-- A hardware line with a fixed filter, HALT# or DRVFLTk# (R115, R124): `pin` is the pin level (true is high),
`active` the filtered level, active when the pin has been low. -/
structure FixedLine where
  pin : Bool
  active : Bool
  timer : Timer
  deriving DecidableEq, Repr

/-! ## Mode control (spec 07) -/

/-- The device mode (R133). -/
inductive Mode where
  | setup | run | halted
  deriving DecidableEq, Repr

/-- What put the part into HALTED (R133). -/
inductive HaltCause where
  | haltLine | linkLost
  deriving DecidableEq, Repr

/-- The kind of the last reset (R133, R148). -/
inductive ResetCause where
  | power | pin | restart0 | restart1
  deriving DecidableEq, Repr

/-- The level of a RESTART (R144). -/
inductive RestartLevel where
  | level0 | level1
  deriving DecidableEq, Repr

/-- The reset in progress: a power-on reset or a pin reset (R147). -/
inductive HardReset where
  | power | pin
  deriving DecidableEq, Repr

/-- The record of mode control (R133), with the reset in progress (R147). -/
structure ModeRecord where
  mode : Mode
  haltCause : Option HaltCause
  resetCause : ResetCause
  pendingRestart : Option RestartLevel
  inReset : Option HardReset
  deriving DecidableEq, Repr

/-! ## Control link (spec 08) -/

/-- The receiver state: the field the next byte belongs to (R155). -/
inductive RxState where
  | hunt | len | seq | kind | payload | crc
  deriving DecidableEq, Repr

/-- The receiver (R155): the partial frame is `len` to `crcHigh`. -/
structure Receiver where
  state : RxState
  len : Byte
  seq : Byte
  kind : Byte
  payload : List Byte
  crcHigh : Option Byte
  crc : BitVec 16
  gapTimer : Timer
  deriving DecidableEq, Repr

/-- The attention slot of the transmit queue (R165, R168, R169): the content of a frame is fixed when it begins. -/
inductive AttnSlot where
  | empty
  | waiting
  | sending (frame : List Byte)
  deriving DecidableEq, Repr

/-- The sequence record (R161): the last accepted sequence number and the stored reply. -/
structure SeqRecord where
  seq : Byte
  reply : List Byte
  deriving DecidableEq, Repr

/-- The control link.  `replies` are the occupied reply slots, oldest first, each a whole frame; `replySending` says
that the oldest of them is in transmission (R165, R167). -/
structure Link where
  rx : Receiver
  seqRecord : Option SeqRecord
  replies : List (List Byte)
  replySending : Bool
  attnSlot : AttnSlot
  attnCounter : Byte
  watchSetting : Nat
  watchTimer : Timer
  rxErrors : Byte
  overruns : Byte
  speed : BitVec 2
  deriving DecidableEq, Repr

/-! ## The whole part -/

/-- The state of the part, and the queue of the commands that wait for it (log 1).
`straps` are the levels of BAUD1:0 (R151, log 16); `tickOwed` says that the last tick's own event
has not been taken (log 22); `openEnd` is the lane whose delay expiry has taken its head into the start queue in an event
whose end is still open (log 24); `freeDraws` counts the free choices drawn (log 9). -/
structure State where
  motion : Motion
  notices : NoticeUnit
  latches : Vector Bool 4
  inputs : Vector Input 32
  haltIn : FixedLine
  drvflt : Vector FixedLine 4
  time : Time
  modes : ModeRecord
  link : Link
  straps : BitVec 2
  tickOwed : Bool
  openEnd : Option LaneIx
  freeDraws : Nat
  pending : List Instr
  deriving DecidableEq, Repr

/-- Reasons for the part to stop with a fault: none.  No rule of the spec stops the part; what it calls a fault of an
actuator or a lane is state. Nothing raises one. -/
inductive Fault where
  deriving DecidableEq, Repr

/-- Reasons for a command to be refused a meaning. -/
inductive Refusal where
  /-- A command without a meaning yet, raised by `exec` alone; every command has its meaning, so nothing raises it.
  It would be safe: the model stops where the part goes on. -/
  | notModelled (mnemonic : String)
  deriving DecidableEq, Repr

/-! ## Reset values -/

/-- The default configuration of an actuator (R2). -/
def ActConfig.default : ActConfig :=
  { kind := .none, sensing := .both, travelLimit := 20, settleTime := 0, crossoverGap := 0, pulseLength := 20,
    faultAction := .release, stopAction := .release, safeAction := .release, guards := [] }

/-- An actuator after a defaulting reset (R7), with machine time 0 (R127). -/
def Actuator.default : Actuator :=
  { cfg := .default, state := .off, position := .u, target := none, owner := .none, fault := none, supervised := false,
    entryTime := 0, lineA := false, lineB := false, gapTimer := none, travelTimer := none, settleTimer := none,
    pulse := none }

/-- A lane after a defaulting reset (R41). -/
def Lane.default : Lane :=
  { state := .empty, steps := [], pausePending := false, fault := none, failedAct := none, cycleCount := 0,
    delayTimer := none, policy := .finishOthers, cycleStop := 0, emptyNotice := false }

/-- Actuators, lanes, pool and arbiter after a defaulting reset (R2, R7, R41, R67, R80). -/
def Motion.default : Motion :=
  { acts := Vector.replicate 16 .default, lanes := Vector.replicate 4 .default, poolFree := Config.poolSize, queue := [],
    marks := Vector.replicate 8 false }

/-- The class table after a defaulting reset: enabled, no nest, the default priorities of R87 (R88). -/
def classDefaults : Vector ClassEntry 10 :=
  #v[⟨true, 0, false⟩, ⟨true, 0, false⟩, ⟨true, 1, false⟩, ⟨true, 2, false⟩, ⟨true, 2, false⟩,
     ⟨true, 4, false⟩, ⟨true, 5, false⟩, ⟨true, 5, false⟩, ⟨true, 6, false⟩, ⟨true, 6, false⟩]

/-- The notice unit after a defaulting reset (R110). -/
def NoticeUnit.default : NoticeUnit :=
  { classes := classDefaults, waiting := [], stack := [], floor := 7, lost := 0, nextId := 1, attn := false }

/-- An input after a defaulting reset (R120), its pin at `raw`. -/
def Input.default (raw : Bool) : Input :=
  { filterTime := 10, invert := false, watch := .none, raw := raw, filtered := raw, timer := none }

/-- A fixed-filter line at the end of a reset: taken as inactive, its filter of `n` ms started from the pin level
(R115, R124). -/
def FixedLine.default (n : Nat) (pin : Bool) : FixedLine :=
  { pin := pin, active := false, timer := if pin then none else some n }

/-- The receiver in HUNT: no partial frame, no gap timer (R155).  What the other fields read is a DESIGN CHOICE
(log 18). -/
def Receiver.hunt : Receiver :=
  { state := .hunt, len := 0, seq := 0, kind := 0, payload := [], crcHigh := none, crc := 0xFFFF, gapTimer := none }

/-- The control link after power-on, a pin reset or a restart of level 0 (R155, R161, R165, R166, R169, R170), at the
speed the straps give (R151). -/
def Link.default (speed : BitVec 2) : Link :=
  { rx := .hunt, seqRecord := none, replies := [], replySending := false, attnSlot := .empty, attnCounter := 0,
    watchSetting := 0, watchTimer := none, rxErrors := 0, overruns := 0, speed := speed }

/-- The part right after a power-on reset has ended (R147; reset cause POWER, R148).  The pins: IN0-IN31 low and the
straps 0 (DESIGN CHOICE, log 13), HALT# and DRVFLTk# high by their pull-ups (log 13).  No command waits (log 1) and no tick's
event is outstanding (DESIGN CHOICE, log 22), nor is the end of a delay expiry's event (DESIGN CHOICE, log 24). -/
def State.reset : State :=
  { motion := .default
    notices := .default
    latches := Vector.replicate 4 false
    inputs := Vector.replicate 32 (.default false)
    haltIn := .default Config.haltFilter true
    drvflt := Vector.replicate 4 (.default Config.drvfltFilter true)
    time := 0
    modes := { mode := .setup, haltCause := none, resetCause := .power, pendingRestart := none, inReset := none }
    link := .default 0
    straps := 0
    tickOwed := false
    openEnd := none
    freeDraws := 0
    pending := [] }

end Sys2Proof.Machine
end

