-- ==== Sys2Proof/Machine/Ops.lean ====
section
/-! DEFINITION. The named operations that read and write the state: vectors, timers, saturating counts, actuators,
lanes, marks, and what a block sees of its surroundings inside an event. -/

namespace Sys2Proof.Machine

/-! ## Vectors and indices -/

/-- Every entry of a vector sent through `f`. -/
def mapVec {α β : Type} {n : Nat} (f : α → β) (v : Vector α n) : Vector β n :=
  ⟨(v.toList.map f).toArray, by simp⟩

/-- Entry `i` of a vector written. -/
def setVec {α : Type} {n : Nat} (v : Vector α n) (i : Fin n) (x : α) : Vector α n := v.set i.val x i.isLt

/-- The actuators, lowest index first. -/
def allActs : List ActIx := List.finRange 16

/-- The lanes, lowest index first. -/
def allLanes : List LaneIx := List.finRange 4

/-- The banks, lowest index first. -/
def allBanks : List BankIx := List.finRange 4

/-- The inputs, lowest index first. -/
def allInputs : List InputIx := List.finRange 32

/-- The X sensor of actuator n is IN 2n (R6). -/
def xInput (a : ActIx) : InputIx := ⟨2 * a.val, by omega⟩

/-- The R sensor of actuator n is IN 2n+1 (R6). -/
def rInput (a : ActIx) : InputIx := ⟨2 * a.val + 1, by omega⟩

/-- The actuator whose sensor an input is (R6). -/
def inputAct (i : InputIx) : ActIx := ⟨i.val / 2, by omega⟩

/-- Which sensor of its actuator an input is: even inputs are X sensors, odd ones R sensors (R6). -/
def inputEnd (i : InputIx) : End := if i.val % 2 = 0 then .x else .r

/-- Bank k holds actuators 4k to 4k+3 (R111). -/
def bankOf (a : ActIx) : BankIx := ⟨a.val / 4, by omega⟩

/-! ## Timers and counts -/

/-- A tick counts a running timer down by one (R128). -/
def Timer.tick (t : Timer) : Timer := t.map (· - 1)

/-- The tick of the timer's expiry has come and the expiry has not been taken (log 2). -/
def Timer.due (t : Timer) : Bool := t == some 0

/-- A timer started with `n` ms; a length of 0 starts no timer (R128). -/
def Timer.start (n : Nat) : Timer := if n = 0 then none else some n

/-- A count 0-255 advanced by one; 255 stays 255 (R93, R94, R158, R166). -/
def satInc (c : Byte) : Byte := if c = 255 then 255 else c + 1

/-! ## Ends, positions, targets -/

def End.opposite : End → End
  | .x => .r
  | .r => .x

def End.position : End → Position
  | .x => .x
  | .r => .r

/-- The move that has the end as its target. -/
def End.asMove : End → MoveTarget
  | .x => .extend
  | .r => .retract

/-! ## Kinds and sensing -/

/-- A managed actuator: SINGLE, DOUBLE_HELD or DOUBLE_PULSED (section 1.2). -/
def Kind.managed : Kind → Bool
  | .single => true
  | .doubleHeld => true
  | .doublePulsed => true
  | .none => false
  | .direct => false

/-- A kind with two coils (R5). -/
def Kind.double : Kind → Bool
  | .doubleHeld => true
  | .doublePulsed => true
  | .single => false
  | .none => false
  | .direct => false

/-- A sensor is present when the sensing includes it (R6). -/
def Sensing.has : Sensing → End → Bool
  | .both, _ => true
  | .xOnly, .x => true
  | .xOnly, .r => false
  | .rOnly, .x => false
  | .rOnly, .r => true
  | .none, _ => false

def Actuator.managed (a : Actuator) : Bool := a.cfg.kind.managed

/-- In GAP, TRAVEL or SETTLE (R21, R27). -/
def Actuator.moving (a : Actuator) : Bool := a.state == .gap || a.state == .travel || a.state == .settle

/-! ## Actuators, lanes and marks of the part -/

def Motion.act (m : Motion) (a : ActIx) : Actuator := m.acts.get a

def Motion.setAct (m : Motion) (a : ActIx) (x : Actuator) : Motion := { m with acts := setVec m.acts a x }

def Motion.lane (m : Motion) (l : LaneIx) : Lane := m.lanes.get l

def Motion.setLane (m : Motion) (l : LaneIx) (x : Lane) : Motion := { m with lanes := setVec m.lanes l x }

def Motion.mark (m : Motion) (k : MarkIx) : Bool := m.marks.get k

def Motion.setMark (m : Motion) (k : MarkIx) (b : Bool) : Motion := { m with marks := setVec m.marks k b }

/-- The head of a lane: its first step (R39). -/
def Lane.head? (l : Lane) : Option Step := l.steps.head?

/-- The head of a lane rewritten; a lane with no step is left alone. -/
def Lane.mapHead (l : Lane) (f : Step → Step) : Lane :=
  match l.steps with
  | [] => l
  | s :: rest => { l with steps := f s :: rest }

/-- The steps held in a lane. -/
def Motion.held (m : Motion) (l : LaneIx) : Nat := (m.lane l).steps.length

/-! ## What a block sees inside an event -/

/-- What the heart of the part sees of the other blocks inside one event: the device mode, machine time, the inputs and
the bank latches. -/
structure Env where
  mode : Mode
  time : Time
  inputs : Vector Input 32
  latches : Vector Bool 4

/-- What one actuator controller sees inside one event: device mode, machine time, the filtered levels of its X and R
inputs, and the latch of its bank. -/
structure View where
  mode : Mode
  time : Time
  x : Bool
  r : Bool
  latched : Bool

def Env.level (v : Env) (i : InputIx) : Bool := (v.inputs.get i).filtered

def Env.view (v : Env) (a : ActIx) : View :=
  { mode := v.mode, time := v.time, x := v.level (xInput a), r := v.level (rInput a), latched := v.latches.get (bankOf a) }

def State.env (s : State) : Env :=
  { mode := s.modes.mode, time := s.time, inputs := s.inputs, latches := s.latches }

/-- The filtered level of the sensor at an end. -/
def View.active (v : View) : End → Bool
  | .x => v.x
  | .r => v.r

/-! ## An event under way -/

/-- A notice raised in an event and not yet taken by the notice unit (section 4.3). -/
structure Raised where
  cls : NoticeClass
  source : Option Nat
  detail : Byte
  tag : Option Tag
  deriving DecidableEq, Repr

/-- An event under way: the heart of the part as the event has left it so far, the notices raised in it, and the lanes
that have started a step in it (R77). -/
structure Event where
  m : Motion
  raised : List Raised
  started : List LaneIx

/-- The event that begins on a state. -/
def State.event (s : State) : Event := { m := s.motion, raised := [], started := [] }

def Event.raise (e : Event) (n : Raised) : Event := { e with raised := e.raised ++ [n] }

def Event.setAct (e : Event) (a : ActIx) (x : Actuator) : Event := { e with m := e.m.setAct a x }

def Event.setLane (e : Event) (l : LaneIx) (x : Lane) : Event := { e with m := e.m.setLane l x }

end Sys2Proof.Machine
end

