-- ==== Sys2Proof/Machine/Operands.lean ====
section
/-! DEFINITION. How values travel on the link: numbers, indices, yes and no, absence and the codes of the enumerations
(R176, R177), in requests and in replies. -/

namespace Sys2Proof.Machine

/-! ## Numbers, most significant byte first (R176) -/

def word16 (hi lo : Byte) : BitVec 16 := hi ++ lo

def word32 (b3 b2 b1 b0 : Byte) : BitVec 32 := b3 ++ b2 ++ b1 ++ b0

def bytes16 (w : BitVec 16) : List Byte := [w.extractLsb' 8 8, w.extractLsb' 0 8]

def bytes32 (w : BitVec 32) : List Byte :=
  [w.extractLsb' 24 8, w.extractLsb' 16 8, w.extractLsb' 8 8, w.extractLsb' 0 8]

/-- A count or an index of one byte. -/
def byteOf (n : Nat) : Byte := BitVec.ofNat 8 n

/-- A duration of two bytes. -/
def bytesOf (n : Nat) : List Byte := bytes16 (BitVec.ofNat 16 n)

/-- Yes or no, on or off, set or clear (R176). -/
def flagByte (b : Bool) : Byte := if b then 1 else 0

/-- A request's yes-or-no byte: 0 or 1, any other value refused (R176). -/
def flagOf (b : Byte) : Option Bool := if b = 0 then some false else if b = 1 then some true else none

/-- An absent one-byte field is FFh (R176). -/
def absentByte : Byte := 0xFF

def optByte {α : Type} (f : α → Byte) : Option α → Byte
  | none => absentByte
  | some x => f x

/-- A request's index byte in range `n` (R176). -/
def indexOf (n : Nat) (b : Byte) : Option (Fin n) := if h : b.toNat < n then some ⟨b.toNat, h⟩ else none

/-- A set of levels as a number: member n at the bit of value 2^n (R176). -/
def bitsValue : List Bool → Nat
  | [] => 0
  | b :: rest => (if b then 1 else 0) + 2 * bitsValue rest

/-- Up to eight levels as one byte (R176). -/
def levelByte (bs : List Bool) : Byte := BitVec.ofNat 8 (bitsValue bs)

/-- Thirty-two levels as four bytes, 31-24 first (R176). -/
def levelBytes (bs : List Bool) : List Byte := bytes32 (BitVec.ofNat 32 (bitsValue bs))

/-! ## Codes of a request's enumerations (R177): a value not listed is refused -/

def Kind.ofCode (b : Byte) : Option Kind :=
  match b.toNat with
  | 0 => some .none
  | 1 => some .single
  | 2 => some .doubleHeld
  | 3 => some .doublePulsed
  | 4 => some .direct
  | _ => Option.none

def Sensing.ofCode (b : Byte) : Option Sensing :=
  match b.toNat with
  | 0 => some .both
  | 1 => some .xOnly
  | 2 => some .rOnly
  | 3 => some .none
  | _ => Option.none

def Action.ofCode (b : Byte) : Option Action :=
  match b.toNat with
  | 0 => some .hold
  | 1 => some .release
  | _ => none

def SafeAction.ofCode (b : Byte) : Option SafeAction :=
  match b.toNat with
  | 0 => some .hold
  | 1 => some .release
  | 2 => some .extend
  | 3 => some .retract
  | _ => none

/-- A guard's required position takes X or R alone. -/
def End.ofCode (b : Byte) : Option End :=
  match b.toNat with
  | 0 => some .x
  | 1 => some .r
  | _ => none

def MoveTarget.ofCode (b : Byte) : Option MoveTarget :=
  match b.toNat with
  | 0 => some .extend
  | 1 => some .retract
  | 2 => some .release
  | _ => none

def FaultPolicy.ofCode (b : Byte) : Option FaultPolicy :=
  match b.toNat with
  | 0 => some .finishOthers
  | 1 => some .stopAll
  | _ => none

/-- The option of LANE_RESUME: RETRY is false, SKIP is true. -/
def resumeSkip (b : Byte) : Option Bool := flagOf b

def Watch.ofCode (b : Byte) : Option Watch :=
  match b.toNat with
  | 0 => some .none
  | 1 => some .rise
  | 2 => some .fall
  | 3 => some .both
  | _ => Option.none

def RestartLevel.ofCode (b : Byte) : Option RestartLevel :=
  match b.toNat with
  | 0 => some .level0
  | 1 => some .level1
  | _ => none

/-! ## Codes in replies and notices (R177) -/

def Kind.code : Kind → Byte
  | .none => 0
  | .single => 1
  | .doubleHeld => 2
  | .doublePulsed => 3
  | .direct => 4

def Sensing.code : Sensing → Byte
  | .both => 0
  | .xOnly => 1
  | .rOnly => 2
  | .none => 3

def Action.code : Action → Byte
  | .hold => 0
  | .release => 1

def SafeAction.code : SafeAction → Byte
  | .hold => 0
  | .release => 1
  | .extend => 2
  | .retract => 3

def End.code : End → Byte
  | .x => 0
  | .r => 1

def Position.code : Position → Byte
  | .x => 0
  | .r => 1
  | .u => 2

def ActState.code : ActState → Byte
  | .off => 0
  | .rest => 1
  | .gap => 2
  | .travel => 3
  | .settle => 4
  | .faulted => 5

/-- The owner codes 1-4 are the lane index plus one. -/
def Owner.code : Owner → Byte
  | .none => 0
  | .lane l => byteOf (l.val + 1)
  | .jog => 5
  | .safe => 6

def ActFault.code : ActFault → Byte
  | .timeout => 0
  | .stuck => 1
  | .conflict => 2
  | .drift => 3
  | .drive => 4

def LaneState.code : LaneState → Byte
  | .empty => 0
  | .waiting => 1
  | .queued => 2
  | .running => 3
  | .paused => 4
  | .faulted => 5

def RunStatus.code : RunStatus → Byte
  | .held => 0
  | .waiting => 1
  | .queued => 2
  | .running => 3
  | .aborted => 4
  | .failed => 5

def LaneFault.code : LaneFault → Byte
  | .moveFailed => 0
  | .startLimit => 1
  | .aborted => 2
  | .halted => 3

def MoveResult.code : MoveResult → Byte
  | .pending => 0
  | .done => 1
  | .failed => 2
  | .stopped => 3

def Mode.code : Mode → Byte
  | .setup => 0
  | .run => 1
  | .halted => 2

def HaltCause.code : HaltCause → Byte
  | .haltLine => 0
  | .linkLost => 1

def ResetCause.code : ResetCause → Byte
  | .power => 0
  | .pin => 1
  | .restart0 => 2
  | .restart1 => 3

def RestartLevel.code : RestartLevel → Byte
  | .level0 => 0
  | .level1 => 1

/-- The class code, which is also the place in the class table (R87). -/
def NoticeClass.index : NoticeClass → Fin 10
  | .halt => 0
  | .link => 1
  | .drive => 2
  | .actFault => 3
  | .laneFault => 4
  | .watch => 5
  | .stepDone => 6
  | .jogDone => 7
  | .cycle => 8
  | .laneEmpty => 9

def NoticeClass.code (c : NoticeClass) : Byte := byteOf c.index.val

/-! ## Status codes (R173) -/

inductive Status where
  | ok | badLength | unknownKind | badArg | wrongMode | wrongState | busy | poolFull | laneFull | notFound | empty
  | stackFull | guard | haltActive | notReady
  deriving DecidableEq, Repr

def Status.code : Status → Byte
  | .ok => 0
  | .badLength => 1
  | .unknownKind => 2
  | .badArg => 3
  | .wrongMode => 4
  | .wrongState => 5
  | .busy => 6
  | .poolFull => 7
  | .laneFull => 8
  | .notFound => 9
  | .empty => 10
  | .stackFull => 11
  | .guard => 12
  | .haltActive => 13
  | .notReady => 14

end Sys2Proof.Machine
end

