-- ==== Sys2Proof/Machine/Flags.lean ====
section
/-! DEFINITION. Conditions read from the state: sensor readings, guards, line levels, reached times, eligibility and the
attention condition. -/

namespace Sys2Proof.Machine

/-! ## Sensors and guards -/

/-- The reading of the sensors (R6). -/
inductive Reading where
  | x | r | u | conflict
  deriving DecidableEq, Repr

/-- The table of R6. -/
def Sensing.reading (s : Sensing) (x r : Bool) : Reading :=
  match s, x, r with
  | .both, true, true => .conflict
  | .both, true, false => .x
  | .both, false, true => .r
  | .both, false, false => .u
  | .xOnly, true, _ => .x
  | .xOnly, false, _ => .u
  | .rOnly, _, true => .r
  | .rOnly, _, false => .u
  | .none, _, _ => .u

/-- The reading of an actuator's sensors (R6). -/
def Actuator.reading (v : View) (a : Actuator) : Reading := a.cfg.sensing.reading v.x v.r

/-- The conflict check: sensing BOTH and both levels active (R21). -/
def Actuator.inConflict (v : View) (a : Actuator) : Bool := a.cfg.sensing == .both && v.x && v.r

/-- The sensor at an end is present and active. -/
def Actuator.senses (v : View) (t : End) (a : Actuator) : Bool := a.cfg.sensing.has t && v.active t

/-- A guard holds: the other actuator is in REST at the required position, supervised (R30). -/
def Motion.guardHolds (m : Motion) (g : Guard) : Bool :=
  let b := m.act g.other
  b.state == .rest && b.position == g.required.position && b.supervised

/-- Every guard of an actuator holds (R30). -/
def Motion.guardsHold (m : Motion) (a : ActIx) : Bool := (m.act a).cfg.guards.all m.guardHolds

/-! ## Line levels (R111, R176) -/

/-- The commanded levels of OUT0-OUT31. -/
def State.commanded (s : State) : List Bool :=
  allActs.flatMap fun a => [(s.motion.act a).lineA, (s.motion.act a).lineB]

/-- The actual level of a line of a bank: off while the latch is set or a hard reset holds the pins low (R111, R113). -/
def State.actualLevel (s : State) (bank : BankIx) (commanded : Bool) : Bool :=
  commanded && !s.latches.get bank && s.modes.inReset.isNone

/-- The actual levels of OUT0-OUT31. -/
def State.actual (s : State) : List Bool :=
  allActs.flatMap fun a =>
    [s.actualLevel (bankOf a) (s.motion.act a).lineA, s.actualLevel (bankOf a) (s.motion.act a).lineB]

/-! ## Time (R130) -/

/-- A machine time is reached when now less t, modulo 2^32, is below 2^31 (R130). -/
def timeReached (now t : Time) : Bool := (now - t).toNat < 2 ^ 31

/-- The reached indicator of a step tested against the count (R131). -/
def Step.testReached (now : Time) (s : Step) : Step :=
  match s.cond with
  | .atTime t => if timeReached now t then { s with reached := true } else s
  | .next => s
  | .delay _ => s
  | .onInput _ _ => s
  | .onMark _ => s

/-! ## Eligibility and attention (R99, R101) -/

/-- A pending record is eligible (R99): not above the floor, and more urgent than the top of the stack, or equal to it
with its own nest flag set. -/
def NoticeUnit.eligible (u : NoticeUnit) (n : Notice) : Bool :=
  decide (n.priority ≤ u.floor) &&
    match u.stack with
    | [] => true
    | top :: _ => decide (n.priority < top.priority) || (n.priority == top.priority && n.nest)

/-- The record CLAIM would take: the first eligible one in pending order (R99). -/
def NoticeUnit.next? (u : NoticeUnit) : Option Notice := u.waiting.find? u.eligible

/-- The attention condition (R101). -/
def NoticeUnit.attention (u : NoticeUnit) : Bool := u.waiting.any u.eligible

/-- The id of the top of the stack, or 0 (R103). -/
def NoticeUnit.topId (u : NoticeUnit) : NoticeId :=
  match u.stack with
  | [] => 0
  | top :: _ => top.id

end Sys2Proof.Machine
end

