-- ==== Sys2Proof/Machine/Actuator.lean ====
section
/-! DEFINITION. What one actuator does (spec 01): moves, travel and settle, pulses, supervision, faults, stop and safe
actions.  Every function here works on one actuator record and what that actuator sees. -/

namespace Sys2Proof.Machine

/-! ## Coils (R5, R14) -/

def Actuator.setCoil (t : End) (b : Bool) (a : Actuator) : Actuator :=
  match t with
  | .x => { a with lineA := b }
  | .r => { a with lineB := b }

def Actuator.coil (t : End) (a : Actuator) : Bool :=
  match t with
  | .x => a.lineA
  | .r => a.lineB

/-- A running pulse is cut, and its coil is commanded off (R14). -/
def Actuator.cutPulse (a : Actuator) : Actuator :=
  match a.pulse with
  | none => a
  | some p => { a.setCoil p.coil false with pulse := none }

/-- Both coils go off; for a SINGLE actuator coil A alone (R5). -/
def Actuator.coilsOff (a : Actuator) : Actuator :=
  match a.cfg.kind with
  | .single => { a with lineA := false, pulse := none }
  | .doubleHeld => { a with lineA := false, lineB := false, pulse := none }
  | .doublePulsed => { a with lineA := false, lineB := false, pulse := none }
  | .none => a
  | .direct => a

/-- The coils under a fault, stop or safe action of HOLD or RELEASE (R24, R27). -/
def Actuator.applyAction (c : Action) (a : Actuator) : Actuator :=
  match c with
  | .hold => a.cutPulse
  | .release => a.coilsOff

/-- The holding pattern of the kind at an end (R5, R10). -/
def Actuator.holdAt (t : End) (a : Actuator) : Actuator :=
  match a.cfg.kind with
  | .single => { a with lineA := t == .x }
  | .doubleHeld => { a with lineA := t == .x, lineB := t == .r }
  | .doublePulsed => { a with lineA := false, lineB := false, pulse := none }
  | .none => a
  | .direct => a

/-- The target coil is energised at entry to TRAVEL (R5, R13, R14). -/
def Actuator.energise (t : End) (a : Actuator) : Actuator :=
  match a.cfg.kind with
  | .single => { a with lineA := t == .x }
  | .doubleHeld => a.setCoil t true
  | .doublePulsed => { a.setCoil t true with pulse := some ⟨t, a.cfg.pulseLength⟩ }
  | .none => a
  | .direct => a

/-- The coil of the opposite target is on (R12): commanded on, or with its pulse running. -/
def Actuator.oppositeOn (t : End) (a : Actuator) : Bool :=
  match a.cfg.kind with
  | .doubleHeld => a.coil t.opposite
  | .doublePulsed => a.pulse.any fun p => p.coil == t.opposite
  | .single => false
  | .none => false
  | .direct => false

/-- The gap, travel and settle timers are cancelled. -/
def Actuator.stopTimers (a : Actuator) : Actuator := { a with gapTimer := none, travelTimer := none, settleTimer := none }

/-! ## Position from the sensors (R6) -/

def Actuator.fromSensors (v : View) (a : Actuator) : Actuator :=
  match a.reading v with
  | .x => { a with position := .x, supervised := true }
  | .r => { a with position := .r, supervised := true }
  | .u => { a with position := .u, supervised := false }
  | .conflict => { a with position := .u, supervised := false }

/-! ## What an actuator reports to its owner (R20, R24) -/

/-- The outcome an actuator hands on: nothing, a completion with the owner it had, or a fault with the owner it had. -/
inductive Report where
  | quiet
  | done (owner : Owner)
  | failed (owner : Owner) (code : ActFault)
  deriving DecidableEq, Repr

structure ActOut where
  act : Actuator
  report : Report
  deriving DecidableEq, Repr

def Actuator.silent (a : Actuator) : ActOut := { act := a, report := .quiet }

/-- A completion is handed to the owner (R20): a lane keeps the actuator, a jog or a safe move gives it up. -/
def Actuator.finish (a : Actuator) : ActOut :=
  match a.owner with
  | .lane l => { act := a, report := .done (.lane l) }
  | .none => { act := a, report := .done .none }
  | .jog => { act := { a with owner := .none }, report := .done .jog }
  | .safe => { act := { a with owner := .none }, report := .done .safe }

/-- An actuator faults (R24): it records the code, releases its owner and applies its fault action. -/
def Actuator.faultWith (v : View) (c : ActFault) (a : Actuator) : ActOut :=
  let b : Actuator := { a.stopTimers with
    state := .faulted, fault := some c, target := none, supervised := false, owner := .none, entryTime := v.time }
  { act := b.applyAction a.cfg.faultAction, report := .failed a.owner c }

/-! ## Moves (R9 to R17) -/

/-- A move completes in REST at its target, out of SETTLE (R17, supervised) or by timed arrival (R19, not). -/
def Actuator.arrive (v : View) (t : End) (supervised : Bool) (a : Actuator) : ActOut :=
  let b : Actuator := { a.stopTimers with
    state := .rest, position := t.position, supervised := supervised, target := none, entryTime := v.time }
  b.finish

/-- Entry to SETTLE (R15, R21). -/
def Actuator.enterSettle (v : View) (t : End) (a : Actuator) : ActOut :=
  let b : Actuator := { a with state := .settle, target := some t, entryTime := v.time }
  if b.inConflict v then b.faultWith v .conflict
  else if b.cfg.settleTime = 0 then b.arrive v t true
  else { b with settleTimer := some b.cfg.settleTime }.silent

/-- Entry to TRAVEL (R13, R21).  The target coil is energised before the conflict check (log 11). -/
def Actuator.enterTravel (v : View) (t : End) (a : Actuator) : ActOut :=
  let b : Actuator := { a with
    state := .travel, target := some t, entryTime := v.time,
    gapTimer := none, travelTimer := some a.cfg.travelLimit, settleTimer := none }.energise t
  if b.inConflict v then b.faultWith v .conflict
  else if b.senses v t then b.enterSettle v t
  else b.silent

/-- Entry to GAP with the opposite coil released (R12, R21); a gap of 0 is passed within the event. -/
def Actuator.enterGap (v : View) (t : End) (a : Actuator) : ActOut :=
  let b : Actuator := { a.cutPulse.setCoil t.opposite false with state := .gap, target := some t, entryTime := v.time }
  if b.inConflict v then b.faultWith v .conflict
  else if b.cfg.crossoverGap = 0 then b.enterTravel v t
  else { b with gapTimer := some b.cfg.crossoverGap }.silent

/-- A move that runs begins with the crossover check (R12). -/
def Actuator.runMove (v : View) (t : End) (a : Actuator) : ActOut :=
  let b : Actuator := { a.stopTimers with supervised := false }
  if b.oppositeOn t then b.enterGap v t else b.enterTravel v t

/-- A move toward an end: complete at once when it finds its actuator there, supervised (R10), else it runs (R12). -/
def Actuator.moveToward (v : View) (t : End) (a : Actuator) : ActOut :=
  if a.state == .rest && a.position == t.position && a.supervised then (a.holdAt t).finish else a.runMove v t

/-- A RELEASE move (R11). -/
def Actuator.releaseMove (v : View) (a : Actuator) : ActOut :=
  let b : Actuator := { a.stopTimers.coilsOff with
    state := .rest, position := .u, supervised := false, target := none,
    entryTime := if a.state == .rest then a.entryTime else v.time }
  b.finish

/-- A move starts with its owner set (R9). -/
def Actuator.startMove (v : View) (owner : Owner) (t : MoveTarget) (a : Actuator) : ActOut :=
  let b : Actuator := { a with owner := owner }
  if v.latched then b.faultWith v .drive
  else match t with
    | .release => b.releaseMove v
    | .extend => b.moveToward v .x
    | .retract => b.moveToward v .r

/-! ## Timers of a move (R13, R14, R16 to R19) -/

/-- Expiry of the gap timer: GAP goes into TRAVEL (R13). -/
def Actuator.gapExpired (v : View) (a : Actuator) : ActOut :=
  match a.state, a.target with
  | .gap, some t => { a with gapTimer := none }.enterTravel v t
  | _, _ => { a with gapTimer := none }.silent

/-- Expiry of the travel timer: TIMEOUT (R18), STUCK or timed arrival (R19); ignored, and spent, in SETTLE (R16). -/
def Actuator.travelExpired (v : View) (a : Actuator) : ActOut :=
  match a.state, a.target with
  | .travel, some t =>
    if a.cfg.sensing.has t then a.faultWith v .timeout
    else if a.senses v t.opposite then a.faultWith v .stuck
    else a.arrive v t false
  | _, _ => { a with travelTimer := none }.silent

/-- Expiry of the settle timer: the move completes (R16, R17). -/
def Actuator.settleExpired (v : View) (a : Actuator) : ActOut :=
  match a.state, a.target with
  | .settle, some t => a.arrive v t true
  | _, _ => { a with settleTimer := none }.silent

/-- Expiry of the pulse timer: the coil goes off and nothing else changes (R14). -/
def Actuator.pulseExpired (a : Actuator) : ActOut := a.cutPulse.silent

/-! ## Sensors (R15, R16, R21 to R23) -/

/-- The target sensor drops in SETTLE: back to TRAVEL, or TIMEOUT when the travel limit is spent (R16). -/
def Actuator.settleDrop (v : View) (a : Actuator) : ActOut :=
  if a.travelTimer.isNone then a.faultWith v .timeout
  else { a with state := .travel, settleTimer := none, entryTime := v.time }.silent

/-- Rest supervision in RUN on a change of the sensor at `e` (R23). -/
def Actuator.restSupervised (v : View) (e : End) (a : Actuator) : ActOut :=
  if a.position == e.position && !v.active e then a.faultWith v .drift
  else if a.inConflict v then a.faultWith v .conflict
  else a.silent

/-- The filtered level of the sensor at `e` has changed (R122): motion supervision (R21), arrival (R15), settle (R16),
rest supervision (R23) or rest tracking (R22).  A free input and an OFF or FAULTED actuator take no change. -/
def Actuator.sensorChanged (v : View) (e : End) (a : Actuator) : ActOut :=
  if !a.cfg.sensing.has e then a.silent
  else match a.state with
    | .off => a.silent
    | .faulted => a.silent
    | .gap => if a.inConflict v then a.faultWith v .conflict else a.silent
    | .travel =>
      if a.inConflict v then a.faultWith v .conflict
      else if a.target == some e && v.active e then a.enterSettle v e
      else a.silent
    | .settle =>
      if a.inConflict v then a.faultWith v .conflict
      else if a.target == some e && !v.active e then a.settleDrop v
      else a.silent
    | .rest =>
      if v.mode == .run && a.supervised then a.restSupervised v e else (a.fromSensors v).silent

/-! ## Stop, safe action, bank latch (R27 to R29, R116) -/

/-- A moving actuator is stopped in REST, unowned, its coils as the action gives them (R27, R28). -/
def Actuator.stopWith (v : View) (c : Action) (a : Actuator) : Actuator :=
  let b : Actuator := { a.stopTimers with state := .rest, target := none, owner := .none, entryTime := v.time }
  (b.applyAction c).fromSensors v

/-- A stop order (R27): it changes nothing in REST, FAULTED or OFF. -/
def Actuator.stop (v : View) (a : Actuator) : Actuator :=
  if a.moving then a.stopWith v a.cfg.stopAction else a

/-- A safe action of HOLD or RELEASE (R28). -/
def Actuator.safeStill (v : View) (c : Action) (a : Actuator) : Actuator :=
  if a.moving then a.stopWith v c
  else match c with
    | .hold => { a with owner := .none }
    | .release => { a.coilsOff with owner := .none }.fromSensors v

/-- A safe action of EXTEND or RETRACT (R29). -/
def Actuator.safeMove (v : View) (t : End) (a : Actuator) : ActOut :=
  if a.moving && a.target == some t then { a with owner := .safe }.silent
  else a.startMove v .safe t.asMove

/-- The safe action ordered by mode control (R28, R29): taken by every managed actuator that is not FAULTED. -/
def Actuator.safeAct (v : View) (a : Actuator) : ActOut :=
  if !a.managed || a.state == .faulted || a.state == .off then a.silent
  else match a.cfg.safeAction with
    | .hold => (a.safeStill v .hold).silent
    | .release => (a.safeStill v .release).silent
    | .extend => a.safeMove v .x
    | .retract => a.safeMove v .r

/-- The setting of the bank's latch (R116, items 2 to 4). -/
def Actuator.latchSet (v : View) (a : Actuator) : ActOut :=
  if !a.managed || a.state == .faulted || a.state == .off then a.silent
  else if a.moving || a.owner != .none then a.faultWith v .drive
  else { a.coilsOff with position := .u, supervised := false }.silent

/-! ## Requests and mode changes -/

/-- Entry to RUN (R135, item 1): a REST actuator takes its position afresh, or faults CONFLICT. -/
def Actuator.enterRun (v : View) (a : Actuator) : ActOut :=
  if a.state == .rest then
    (if a.inConflict v then a.faultWith v .conflict else (a.fromSensors v).silent)
  else a.silent

/-- ACT_CLEAR of a FAULTED actuator (R26). -/
def Actuator.cleared (v : View) (a : Actuator) : Actuator :=
  { a with fault := none, state := .rest, entryTime := v.time }.fromSensors v

/-- The runtime record that a configuration begins with: REST from the sensors for a managed kind, OFF for the others;
both lines off, no timer, no owner (R4, R7). -/
def Actuator.configured (v : View) (c : ActConfig) (a : Actuator) : Actuator :=
  let b : Actuator := { a with
    cfg := c, target := none, owner := .none, fault := none, entryTime := v.time, lineA := false, lineB := false,
    gapTimer := none, travelTimer := none, settleTimer := none, pulse := none }
  if c.kind.managed then { b with state := .rest }.fromSensors v
  else { b with state := .off, position := .u, supervised := false }

end Sys2Proof.Machine
end

