-- ==== Sys2Proof/Machine/Lanes.lean ====
section
/-! DEFINITION. What a lane does inside an event (spec 02): taking results, evaluating its head, completing, failing,
stopping and holding its step. -/

namespace Sys2Proof.Machine

/-! ## Steps -/

/-- A result recorded for the move on an actuator; the first FAILED one of the pass is kept (R47, R51). -/
def Step.record (a : ActIx) (r : MoveResult) (s : Step) : Step :=
  { s with
    results := s.results.map fun p => if p.1 = a then (a, r) else p
    firstFailed := if r == .failed then s.firstFailed.or (some a) else s.firstFailed }

/-- Every PENDING move has been stopped (R52, R60). -/
def Step.stopped (s : Step) : Step :=
  { s with results := s.results.map fun p => if p.2 = .pending then (p.1, .stopped) else p }

/-- A step that waits again: HELD, its results absent (R50, R58). -/
def Step.again (s : Step) : Step := { s with run := .held, results := [], startTime := none, firstFailed := none }

def Step.anyFailed (s : Step) : Bool := s.results.any fun p => p.2 == .failed

def Step.anyPending (s : Step) : Bool := s.results.any fun p => p.2 == .pending

def Step.allDone (s : Step) : Bool := s.results.all fun p => p.2 == .done

/-! ## Results from the actuators (R47) -/

/-- A RUNNING lane records a result; any other lane takes none (R63). -/
def Event.record (l : LaneIx) (a : ActIx) (r : MoveResult) (e : Event) : Event :=
  if (e.m.lane l).state == .running then e.setLane l ((e.m.lane l).mapHead (Step.record a r)) else e

/-- A report of actuator `a` taken: the notice it raises (R24, R32) and the result its lane records (R20, R47). -/
def Event.takeReport (a : ActIx) (r : Report) (e : Event) : Event :=
  match r with
  | .quiet => e
  | .done (.lane l) => e.record l a .done
  | .done .jog =>
    e.raise { cls := .jogDone, source := some a.val, detail := (e.m.act a).position.code, tag := none }
  | .done .safe => e
  | .done .none => e
  | .failed (.lane l) c =>
    (e.raise { cls := .actFault, source := some a.val, detail := c.code, tag := none }).record l a .failed
  | .failed .none c => e.raise { cls := .actFault, source := some a.val, detail := c.code, tag := none }
  | .failed .jog c => e.raise { cls := .actFault, source := some a.val, detail := c.code, tag := none }
  | .failed .safe c => e.raise { cls := .actFault, source := some a.val, detail := c.code, tag := none }

/-- The lane a report concerns. -/
def Report.lane? : Report → Option LaneIx
  | .quiet => none
  | .done (.lane l) => some l
  | .done .none => none
  | .done .jog => none
  | .done .safe => none
  | .failed (.lane l) _ => some l
  | .failed .none _ => none
  | .failed .jog _ => none
  | .failed .safe _ => none

/-- Actuator `a` does `f`, and its report is recorded but not acted on. -/
def Event.actOnly (v : Env) (a : ActIx) (f : View → Actuator → ActOut) (e : Event) : Event :=
  let out := f (v.view a) (e.m.act a)
  (e.setAct a out.act).takeReport a out.report

/-! ## The start queue and the pool -/

/-- The entry of a lane leaves the start queue with its start limit timer (R69). -/
def Event.leaveQueue (l : LaneIx) (e : Event) : Event :=
  { e with m := { e.m with queue := e.m.queue.filter fun q => q.lane ≠ l } }

/-- A head joins the tail of the start queue (R68). -/
def Event.joinQueue (l : LaneIx) (e : Event) : Event :=
  match (e.m.lane l).steps with
  | [] => e
  | h :: rest =>
    let m := e.m.setLane l { e.m.lane l with
      state := .queued, steps := { h with run := .queued } :: rest, delayTimer := none }
    { e with m := { m with queue := m.queue ++ [{ lane := l, limit := Timer.start h.startLimit }] } }

/-- The head waits for its delay or its time, or is HELD outside RUN; the lane is WAITING (R43). -/
def Event.waitHead (l : LaneIx) (run : RunStatus) (timer : Timer) (e : Event) : Event :=
  e.setLane l { (e.m.lane l).mapHead (fun h => { h with run := run }) with state := .waiting, delayTimer := timer }

/-- A lane evaluates its head (R43, R35); a lane with no step has none to evaluate. -/
def Event.evaluate (v : Env) (l : LaneIx) (e : Event) : Event :=
  match (e.m.lane l).steps with
  | [] => e
  | h :: _ =>
    if v.mode == .run then
      match h.cond with
      | .next => e.joinQueue l
      | .onInput _ _ => e.joinQueue l
      | .onMark _ => e.joinQueue l
      | .delay d => if d = 0 then e.joinQueue l else e.waitHead l .waiting (some d)
      | .atTime _ => if h.reached then e.joinQueue l else e.waitHead l .waiting none
    else e.waitHead l .held none

/-- The head is HELD again, out of the start queue and with no delay timer, and the lane takes the state (R45, R56, R64). -/
def Event.holdLane (l : LaneIx) (st : LaneState) (e : Event) : Event :=
  let e := e.leaveQueue l
  e.setLane l { (e.m.lane l).mapHead (fun h => { h with run := .held }) with state := st, delayTimer := none }

/-- The steps of a lane replaced by fewer, the entries going back to the pool (R36). -/
def Event.keepSteps (l : LaneIx) (steps : List Step) (e : Event) : Event :=
  let gone := (e.m.lane l).steps.length - steps.length
  let m := e.m.setLane l { e.m.lane l with steps := steps }
  { e with m := { m with poolFree := m.poolFree + gone } }

/-- A lane loses its head and evaluates the next one, or becomes EMPTY (R59, R61). -/
def Event.dropHead (v : Env) (l : LaneIx) (e : Event) : Event :=
  let e := e.leaveQueue l
  let e := e.keepSteps l (e.m.lane l).steps.tail
  if (e.m.lane l).steps.isEmpty then e.setLane l { e.m.lane l with state := .empty, delayTimer := none }
  else e.evaluate v l

/-! ## Owners, stops and lane faults -/

/-- Every actuator of a list of moves is given owner NONE (R48). -/
def Event.releaseAll (moves : List Move) (e : Event) : Event :=
  moves.foldl (fun e mv => e.setAct mv.act { e.m.act mv.act with owner := .none }) e

/-- Every actuator of a list of moves that still has owner LANEl is given owner NONE (R54, R60). -/
def Event.releaseOwned (l : LaneIx) (moves : List Move) (e : Event) : Event :=
  moves.foldl
    (fun e mv =>
      if (e.m.act mv.act).owner = .lane l then e.setAct mv.act { e.m.act mv.act with owner := .none } else e) e

/-- Every actuator whose move is PENDING takes a stop order (R27). -/
def Event.stopActs (v : Env) (results : List (ActIx × MoveResult)) (e : Event) : Event :=
  results.foldl
    (fun e p => if p.2 = .pending then e.setAct p.1 ((e.m.act p.1).stop (v.view p.1)) else e) e

/-- The PENDING moves of a lane's step are stopped and recorded STOPPED (R52, R60). -/
def Event.stopPending (v : Env) (l : LaneIx) (e : Event) : Event :=
  match (e.m.lane l).steps with
  | [] => e
  | h :: _ =>
    let e := e.stopActs v h.results
    e.setLane l ((e.m.lane l).mapHead Step.stopped)

/-- A lane becomes FAULTED with its head kept, and raises LANE_FAULT with the head's tag (R54, R60, R63, R66, R85). -/
def Event.faultLane (l : LaneIx) (run : RunStatus) (c : LaneFault) (failed : Option ActIx) (e : Event) : Event :=
  match (e.m.lane l).steps with
  | [] => e
  | h :: rest =>
    (e.setLane l { e.m.lane l with
      state := .faulted, steps := { h with run := run } :: rest, fault := some c, failedAct := failed,
      pausePending := false, delayTimer := none }).raise
      { cls := .laneFault, source := some l.val, detail := c.code, tag := some h.tag }

/-- A RUNNING step fails (R54). -/
def Event.failStep (l : LaneIx) (e : Event) : Event :=
  match (e.m.lane l).steps with
  | [] => e
  | h :: _ => (e.releaseOwned l h.moves).faultLane l .failed .moveFailed h.firstFailed

/-- A RUNNING step is aborted (R60). -/
def Event.abortStep (v : Env) (l : LaneIx) (e : Event) : Event :=
  match (e.m.lane l).steps with
  | [] => e
  | h :: _ => ((e.stopPending v l).releaseOwned l h.moves).faultLane l .aborted .aborted none

/-! ## Completion (R48 to R50) -/

/-- Items 1 to 3 of R48: owners released, the mark set, STEP_DONE raised. -/
def Event.finishMoves (l : LaneIx) (h : Step) (e : Event) : Event :=
  let e := e.releaseAll h.moves
  let e := match h.mark with
    | none => e
    | some k => { e with m := e.m.setMark k true }
  if h.report then e.raise { cls := .stepDone, source := some l.val, detail := 0, tag := some h.tag } else e

/-- The cycle stop is reached by a count (R49). -/
def cycleStopHit (stop count : BitVec 16) : Bool := stop != 0 && count.toNat % stop.toNat == 0

/-- Item 4 of R48: the cycle counted and the cycle stop tested (R49). -/
def Event.countCycle (l : LaneIx) (h : Step) (e : Event) : Event :=
  if h.cycleEnd then
    let ln := e.m.lane l
    let count := ln.cycleCount + 1
    if cycleStopHit ln.cycleStop count then
      (e.setLane l { ln with cycleCount := count, pausePending := true }).raise
        { cls := .cycle, source := some l.val, detail := count.extractLsb' 0 8, tag := none }
    else e.setLane l { ln with cycleCount := count }
  else e

/-- Item 5 of R48: the step returns to the pool, or moves to the tail (R50). -/
def Event.retire (l : LaneIx) (e : Event) : Event :=
  match (e.m.lane l).steps with
  | [] => e
  | h :: rest =>
    if h.recirculate then e.setLane l { e.m.lane l with steps := rest ++ [h.again] } else e.keepSteps l rest

/-- Item 6 of R48: the lane pauses, evaluates its next head, or is empty. -/
def Event.goOn (v : Env) (l : LaneIx) (e : Event) : Event :=
  let ln := e.m.lane l
  if ln.pausePending then e.setLane l { ln with state := .paused, pausePending := false }
  else if ln.steps.isEmpty then
    let e := e.setLane l { ln with state := .empty }
    if ln.emptyNotice then e.raise { cls := .laneEmpty, source := some l.val, detail := 0, tag := none } else e
  else e.evaluate v l

/-- A RUNNING step completes (R48). -/
def Event.completeStep (v : Env) (l : LaneIx) (e : Event) : Event :=
  match (e.m.lane l).steps with
  | [] => e
  | h :: _ => (((e.finishMoves l h).countCycle l h).retire l).goOn v l

/-- A RUNNING lane acts on the results of its step (R47, R48, R51 to R54). -/
def Event.actOnResults (v : Env) (l : LaneIx) (e : Event) : Event :=
  if (e.m.lane l).state == .running then
    match (e.m.lane l).steps with
    | [] => e
    | h :: _ =>
      if h.anyFailed then
        if h.anyPending then
          match (e.m.lane l).policy with
          | .stopAll => (e.stopPending v l).failStep l
          | .finishOthers => e
        else e.failStep l
      else if h.allDone then e.completeStep v l
      else e
  else e

/-- Actuator `a` does `f`, and its lane acts on the result in the same event (R47). -/
def Event.act (v : Env) (a : ActIx) (f : View → Actuator → ActOut) (e : Event) : Event :=
  let out := f (v.view a) (e.m.act a)
  let e := (e.setAct a out.act).takeReport a out.report
  match out.report.lane? with
  | none => e
  | some l => e.actOnResults v l

/-! ## Halt and leaving RUN (R45, R63, R64) -/

/-- A halt order reaches a lane (R63, R64). -/
def Event.haltLane (l : LaneIx) (e : Event) : Event :=
  match (e.m.lane l).state with
  | .running => e.faultLane l .aborted .halted none
  | .waiting => e.holdLane l .waiting
  | .queued => e.holdLane l .waiting
  | .empty => e
  | .paused => e
  | .faulted => e

/-- ENTER_SETUP from RUN reaches a lane (R45). -/
def Event.dropLane (l : LaneIx) (e : Event) : Event :=
  match (e.m.lane l).state with
  | .waiting => e.holdLane l .waiting
  | .queued => e.holdLane l .waiting
  | .running => e
  | .empty => e
  | .paused => e
  | .faulted => e

/-- Mode control empties the whole start queue (R69). -/
def Event.clearQueue (e : Event) : Event := { e with m := { e.m with queue := [] } }

/-- The halt order of mode control to the queue, the lanes and the actuators (R138). -/
def Event.haltAll (v : Env) (e : Event) : Event :=
  let e := allLanes.foldl (fun e l => e.haltLane l) e.clearQueue
  allActs.foldl (fun e a => e.act v a Actuator.safeAct) e

end Sys2Proof.Machine
end

