-- ==== Sys2Proof/Machine/Arbiter.lean ====
section
/-! DEFINITION. The start arbiter (spec 03): the start test, the claims of older entries, and the starts of one event. -/

namespace Sys2Proof.Machine

/-- The head of the lane an entry stands for. -/
def Motion.headOf (m : Motion) (q : QEntry) : Option Step := (m.lane q.lane).head?

/-- An actuator is free for the start test (R72). -/
def Motion.actFree (m : Motion) (a : ActIx) : Bool := (m.act a).owner == .none && (m.act a).state != .faulted

/-- The part of the start test that the start condition adds (R74). -/
def Motion.condHolds (m : Motion) (v : Env) (c : StartCond) : Bool :=
  match c with
  | .next => true
  | .delay _ => true
  | .atTime _ => true
  | .onInput i level => v.level i == level
  | .onMark k => m.mark k

/-- The start test of a step (R71): its actuators free, their guards holding, its input or mark present. -/
def Motion.startTest (m : Motion) (v : Env) (s : Step) : Bool :=
  s.moves.all (fun mv => m.actFree mv.act && m.guardsHold mv.act) && m.condHolds v s.cond

/-- Two steps name a moved actuator in common. -/
def sharesActuator (s t : Step) : Bool := s.moves.any fun mv => t.moves.any fun mw => mv.act == mw.act

/-- Two steps wait on the same mark. -/
def sharesMark (s t : Step) : Bool :=
  match s.cond, t.cond with
  | .onMark k, .onMark j => k == j
  | _, _ => false

/-- An older entry holds back a step (R75). -/
def Motion.claims (m : Motion) (older : QEntry) (s : Step) : Bool :=
  match m.headOf older with
  | none => false
  | some h => sharesActuator h s || sharesMark h s

/-- An entry meets the condition of R75, behind the older entries given, and its lane has not started a step in this
event (R77). -/
def Event.ready (v : Env) (e : Event) (older : List QEntry) (q : QEntry) : Bool :=
  match e.m.headOf q with
  | none => false
  | some s => !e.started.contains q.lane && e.m.startTest v s && older.all fun o => !e.m.claims o s

/-- The oldest entry that meets the condition (R76). -/
def Event.findReady (v : Env) (e : Event) : List QEntry → List QEntry → Option LaneIx
  | _, [] => none
  | older, q :: rest => if e.ready v older q then some q.lane else e.findReady v (older ++ [q]) rest

/-- Item 3 of R78: an ON_MARK start consumes its mark (R83). -/
def Event.consumeMark (c : StartCond) (e : Event) : Event :=
  match c with
  | .onMark k => { e with m := e.m.setMark k false }
  | .next => e
  | .delay _ => e
  | .atTime _ => e
  | .onInput _ _ => e

/-- Items 1 and 2 of R46: the step runs from this event, every move PENDING. -/
def Event.beginRun (v : Env) (l : LaneIx) (h : Step) (e : Event) : Event :=
  let ln := (e.m.lane l).mapHead fun s => { s with
    run := .running, startTime := some v.time, firstFailed := none
    results := h.moves.map fun mv => (mv.act, .pending) }
  { e.setLane l { ln with state := .running, delayTimer := none } with started := l :: e.started }

/-- Items 3 and 4 of R46: the moves started in the order of the list, their results held. -/
def Event.startMoves (v : Env) (l : LaneIx) (moves : List Move) (e : Event) : Event :=
  moves.foldl (fun e mv => e.actOnly v mv.act fun w a => a.startMove w (.lane l) mv.target) e

/-- The head of a lane starts (R78, R46). -/
def Event.startLane (v : Env) (l : LaneIx) (e : Event) : Event :=
  match (e.m.lane l).steps with
  | [] => e
  | h :: _ =>
    ((((e.leaveQueue l).consumeMark h.cond).beginRun v l h).startMoves v l h.moves).actOnResults v l

/-- The starts of one event, at most `n`: each time the oldest entry that meets the condition (R75, R76, log 12). -/
def Event.startReady (v : Env) : Nat → Event → Event
  | 0, e => e
  | n + 1, e =>
    match e.findReady v [] e.m.queue with
    | none => e
    | some l => (e.startLane v l).startReady v n

/-- The arbiter at the end of an event: it starts steps in RUN alone (R70), at most one per lane and so at most four
(R77). -/
def Event.arbitrate (v : Env) (e : Event) : Event := if v.mode == .run then e.startReady v 4 else e

end Sys2Proof.Machine
end

