-- ==== Sys2Proof/Machine/Notices.lean ====
section
/-! DEFINITION. How the notice unit takes the notices of an event (spec 04): their order, merging, loss, ids and places. -/

namespace Sys2Proof.Machine

/-! ## The order of the notices of one event (R96) -/

/-- The place of a notice among those of its event: the block's own, then actuators by index, then lanes by index, and
within one lane STEP_DONE, CYCLE, LANE_EMPTY, LANE_FAULT (R96, log 10). -/
def Raised.rank (n : Raised) : Nat :=
  let k := n.source.getD 0
  match n.cls with
  | .halt => 0
  | .link => 0
  | .drive => 0
  | .watch => 0
  | .actFault => 100 + k
  | .jogDone => 100 + k
  | .stepDone => 200 + 10 * k
  | .cycle => 201 + 10 * k
  | .laneEmpty => 202 + 10 * k
  | .laneFault => 203 + 10 * k

def insertRaised (n : Raised) : List Raised → List Raised
  | [] => [n]
  | m :: rest => if n.rank ≤ m.rank then n :: m :: rest else m :: insertRaised n rest

/-- The notices of an event in the order of R96; those of one rank keep the order in which they were raised. -/
def sortRaised (ns : List Raised) : List Raised := ns.foldr insertRaised []

/-! ## One notice (R92 to R95) -/

/-- A record and a notice of the same class and source (R92, item 2). -/
def Notice.matchesRaised (r : Notice) (n : Raised) : Bool := r.cls == n.cls && r.source == n.source

/-- A notice merged into a pending record (R93). -/
def Notice.merge (now : Time) (n : Raised) (r : Notice) : Notice :=
  { r with
    count := satInc r.count
    lastTime := now
    detail := n.detail
    tags := match r.tags, n.tag with
      | some (first, _), some t => some (first, t)
      | tags, _ => tags }

/-- The id after an id: 65,535 is followed by 1 (R95). -/
def idAfter (i : NoticeId) : NoticeId := if i = 0xFFFF then 1 else i + 1

/-- The first id from `i` upward that is not in use; `fuel` bounds the search (R95). -/
def freshId (used : List NoticeId) : Nat → NoticeId → NoticeId
  | 0, i => i
  | fuel + 1, i => if used.contains i then freshId used fuel (idAfter i) else i

/-- The ids of the pending and the stacked records. -/
def NoticeUnit.idsInUse (u : NoticeUnit) : List NoticeId := u.waiting.map (·.id) ++ u.stack.map (·.id)

/-- The id a new record takes (R95); a search one longer than the ids in use always finds one. -/
def NoticeUnit.newId (u : NoticeUnit) : NoticeId := freshId u.idsInUse (u.idsInUse.length + 1) u.nextId

/-- A record placed in pending order: behind every record of its priority or a more urgent one (R97). -/
def placeNotice (r : Notice) : List Notice → List Notice
  | [] => [r]
  | q :: rest => if r.priority < q.priority then r :: q :: rest else q :: placeNotice r rest

/-- The record a notice creates (R90, R92 item 4). -/
def NoticeUnit.recordOf (u : NoticeUnit) (now : Time) (n : Raised) : Notice :=
  let c := u.classes.get n.cls.index
  { id := u.newId, cls := n.cls, source := n.source, priority := c.priority, nest := c.nest, detail := n.detail,
    firstTime := now, lastTime := now, count := 1, tags := n.tag.map fun t => (t, t) }

/-- A raised notice is discarded, merged, lost or created (R92). -/
def NoticeUnit.take (now : Time) (u : NoticeUnit) (n : Raised) : NoticeUnit :=
  if !(u.classes.get n.cls.index).enabled then u
  else if u.waiting.any (·.matchesRaised n) then
    { u with waiting := u.waiting.map fun r => if r.matchesRaised n then r.merge now n else r }
  else if Config.pendingSize ≤ u.waiting.length then { u with lost := satInc u.lost }
  else { u with waiting := placeNotice (u.recordOf now n) u.waiting, nextId := idAfter u.newId }

/-- The notices of one event, in the order of R96. -/
def NoticeUnit.takeAll (now : Time) (ns : List Raised) (u : NoticeUnit) : NoticeUnit :=
  (sortRaised ns).foldl (fun u n => u.take now n) u

end Sys2Proof.Machine
end

