-- ==== Sys2Proof/Machine/Transmit.lean ====
section
/-! DEFINITION. Frames, their CRC, and the transmitter (spec 08: R153, R154, R164 to R169). -/

namespace Sys2Proof.Machine

/-! ## CRC (R154) -/

/-- One place of the register: shifted left, 1021h exclusive-ORed in when a 1 went out. -/
def crcShift (c : BitVec 16) : BitVec 16 := if c.msb then (c <<< 1) ^^^ 0x1021#16 else c <<< 1

/-- One byte entered in the register, most significant bit first. -/
def crcByte (c : BitVec 16) (b : Byte) : BitVec 16 :=
  crcShift (crcShift (crcShift (crcShift (crcShift (crcShift (crcShift (crcShift (c ^^^ (b ++ 0#8)))))))))

/-- The register over a list of bytes, from FFFFh. -/
def crcOf (bs : List Byte) : BitVec 16 := bs.foldl crcByte 0xFFFF#16

/-! ## Frames (R153) -/

/-- A whole frame: lead, LEN, SEQ, KIND, payload, CRC. -/
def frameOf (seq kind : Byte) (payload : List Byte) : List Byte :=
  let body := byteOf payload.length :: seq :: kind :: payload
  Config.lead :: (body ++ bytes16 (crcOf body))

/-- The KIND of a reply: the request's with bit 80h set (R164). -/
def replyKind (kind : Byte) : Byte := kind ||| 0x80

/-- The KIND of an attention frame (R169). -/
def attentionKind : Byte := 0x7F

/-- The payload of an attention frame, taken from the notice unit (R169, R186). -/
def NoticeUnit.attentionPayload (u : NoticeUnit) : List Byte :=
  byteOf u.waiting.length ::
    match u.next? with
    | none => [0, 0, 0, 0]
    | some r => bytes16 r.id ++ [r.cls.code, byteOf r.priority.val]

/-! ## The transmitter (R165, R167) -/

/-- No frame is in transmission. -/
def Link.idle (k : Link) : Bool :=
  !k.replySending &&
    match k.attnSlot with
    | .sending _ => false
    | .empty => true
    | .waiting => true

/-- The attention frame begins: its content is fixed, and the attention counter advances (R169). -/
def State.beginAttention (s : State) : State :=
  { s with link := { s.link with
      attnSlot := .sending (frameOf s.link.attnCounter attentionKind s.notices.attentionPayload)
      attnCounter := s.link.attnCounter + 1 } }

/-- The oldest reply begins. -/
def State.beginReply (s : State) : State := { s with link := { s.link with replySending := true } }

/-- An idle transmitter begins the next frame (R167): a waiting attention frame first, otherwise the oldest reply.  When
the attention frame was queued in this very event (`fresh`) and a reply waits too, the order is a free choice (log 9). -/
def State.beginNext (fresh : Bool) (s : State) : State :=
  if s.link.idle then
    if s.link.attnSlot == .waiting then
      if fresh && !s.link.replies.isEmpty then
        let t := { s with freeDraws := s.freeDraws + 1 }
        if Config.replyBeginsFirst s.freeDraws then t.beginReply else t.beginAttention
      else s.beginAttention
    else if s.link.replies.isEmpty then s else s.beginReply
  else s

end Sys2Proof.Machine
end

