-- ==== Sys2Proof/Machine/Events.lean ====
section
/-! DEFINITION. The end of an event: the arbiter's starts (R75), the notices in their order (R96), the attention condition
(R101, R102, R168) and the transmitter (R167).  The order of these is log 3. -/

namespace Sys2Proof.Machine

/-- What an event has done before its end: the blocks as it left them, and the heart of the part with the notices. -/
structure Body where
  s : State
  e : Event

/-- An event that has done nothing yet. -/
def State.body (s : State) : Body := { s := s, e := s.event }

/-- The attention condition is judged: ATTN# follows it (R101), and a rise asks for an attention frame, queued when the
attention slot is empty (R102, R168). -/
def State.judge (s : State) : State :=
  let now := s.notices.attention
  let asks := now && !s.notices.attn && s.link.attnSlot == .empty
  { s with
    notices := { s.notices with attn := now }
    link := { s.link with attnSlot := if asks then .waiting else s.link.attnSlot } }

/-- The heart as an event left it is taken over, its notices are taken and attention is judged. -/
def State.settle (s : State) (e : Event) : State :=
  { s with motion := e.m, notices := s.notices.takeAll s.time e.raised }.judge

/-- The end of an event. -/
def Body.close (b : Body) : State :=
  (b.s.settle (b.e.arbitrate b.s.env)).beginNext (b.s.link.attnSlot == .empty)

/-- The end of a delay expiry's event, where it is still open: the arbiter's turn, in which the head starts if it may
(R75, log 24). -/
def State.shut (s : State) : State :=
  match s.openEnd with
  | none => s
  | some _ => Body.close { s with openEnd := none }.body

/-- An event taken while the part operates: from the beginning of a hard reset to its end no event but the resets' own and
the pins' is taken (R147).  An event that falls `together` with a delay expiry whose end is open shares that end with it;
before any other the expiry's event ends (R44, log 24). -/
def State.liveAs (together : Bool) (s : State) (f : State → State) : State :=
  if s.modes.inReset.isSome then s else f (if together then { s with openEnd := none } else s.shut)

/-- An event that falls together with no other. -/
def State.live (s : State) (f : State → State) : State := s.liveAs false f

/-- The outcome of a command: always a next state (NOTES.md, Stops). -/
def answered (s : State) : Host.Outcome State Fault Refusal := .next s

end Sys2Proof.Machine
end

