-- ==== Sys2Proof/Machine/Stages.lean ====
section
/-! DEFINITION. The events of the input stage, the output stage and mode control (spec 05, 07) as bodies of events. -/

namespace Sys2Proof.Machine

/-! ## Input stage (R120 to R122) -/

/-- The level after inversion (R120). -/
def Input.inverted (i : Input) : Bool := i.raw != i.invert

/-- The change of a filtered level to `b` matches the watch setting (R122). -/
def Watch.catches (w : Watch) (b : Bool) : Bool :=
  match w with
  | .none => false
  | .rise => b
  | .fall => !b
  | .both => true

def State.setInput (s : State) (i : InputIx) (x : Input) : State := { s with inputs := setVec s.inputs i x }

/-- The filtered level of input `i` changes to `b` (R121), and the change is handed on to the watch and to the actuator
that reads it (R122); the arbiter sees it at the event's end (R75). -/
def State.levelChange (i : InputIx) (b : Bool) (s : State) : Body :=
  let x := s.inputs.get i
  let t := s.setInput i { x with filtered := b, timer := none }
  let e := if x.watch.catches b then
      t.event.raise { cls := .watch, source := some i.val, detail := flagByte b, tag := none }
    else t.event
  { s := t, e := e.act t.env (inputAct i) fun v a => a.sensorChanged v (inputEnd i) }

/-- The stability timing of input `i` begins against the level after inversion (R121, R123): a timer toward a new level,
the change at once with filter time 0, or no timer when the levels agree. -/
def State.retime (i : InputIx) (s : State) : Body :=
  let x := s.inputs.get i
  if x.inverted = x.filtered then (s.setInput i { x with timer := none }).body
  else if x.filterTime = 0 then s.levelChange i x.inverted
  else (s.setInput i { x with timer := some x.filterTime.toNat }).body

/-! ## Fixed-filter lines (R115, R124) -/

/-- A change of the pin restarts the filter of `n` ms; a pin at the filtered level needs none. -/
def FixedLine.change (n : Nat) (level : Bool) (f : FixedLine) : FixedLine :=
  { f with pin := level, timer := if level = f.active then some n else none }

/-- The filter time has passed: the filtered level is active when the pin is low. -/
def FixedLine.expire (f : FixedLine) : FixedLine := { f with active := !f.pin, timer := none }

/-! ## Mode control (R138, R140, R141) -/

/-- A halt or a link loss (R138, R140, R141): outside HALTED the part halts with the cause, in HALTED only the notice is
raised. -/
def State.haltPart (cause : HaltCause) (cls : NoticeClass) (s : State) : Body :=
  let note : Raised := { cls := cls, source := none, detail := 0, tag := none }
  if s.modes.mode == .halted then { s := s, e := s.event.raise note }
  else
    let t := { s with modes := { s.modes with mode := .halted, haltCause := some cause } }
    { s := t, e := (t.event.haltAll t.env).raise note }

/-- A change of HALT#'s filtered level is handed to mode control (R124, R138, R140). -/
def State.haltLevel (s : State) : Body :=
  let t := { s with haltIn := s.haltIn.expire }
  if t.haltIn.active && !s.haltIn.active then t.haltPart .haltLine .halt else t.body

/-! ## Output stage (R116, R118) -/

/-- The actuators of a bank, lowest index first (R116). -/
def bankActs (k : BankIx) : List ActIx := allActs.filter fun a => bankOf a = k

/-- DRVFLTk# becomes active: the latch is set with its effects (R116), or is set already and only DRIVE is raised (R118). -/
def State.driverFault (k : BankIx) (s : State) : Body :=
  let note : Raised := { cls := .drive, source := some k.val, detail := 0, tag := none }
  if s.latches.get k then { s := s, e := s.event.raise note }
  else
    let t := { s with latches := setVec s.latches k true }
    { s := t, e := ((bankActs k).foldl (fun e a => e.act t.env a Actuator.latchSet) t.event).raise note }

/-- A change of DRVFLTk#'s filtered level (R115, R116, R118). -/
def State.drvfltLevel (k : BankIx) (s : State) : Body :=
  let f := s.drvflt.get k
  let t := { s with drvflt := setVec s.drvflt k f.expire }
  if f.expire.active && !f.active then t.driverFault k else t.body

end Sys2Proof.Machine
end

