-- ==== Sys2Proof/Machine/Pins.lean ====
section
/-! DEFINITION. Changes of the pins (R115, R121, R124).  While a hard reset lasts the pins still change, but no filter acts
(R147): the levels then count at its end (R115, R120, R124). -/

namespace Sys2Proof.Machine

/-- The pin of an input takes a level during a hard reset. -/
def State.rawOnly (i : InputIx) (level : Bool) (s : State) : State :=
  s.setInput i { s.inputs.get i with raw := level }

/-- INPUT_RAW_CHANGE (R121). -/
def execInputRawChange (i : InputIx) (level : Bool) (s : State) : Host.Outcome State Fault Refusal :=
  if (s.inputs.get i).raw = level then answered (s.live id)
  else if s.modes.inReset.isSome then answered (s.rawOnly i level)
  else answered (s.live fun s => ((s.rawOnly i level).retime i).close)

/-- HALT_PIN_CHANGE (R124). -/
def execHaltPinChange (level : Bool) (s : State) : Host.Outcome State Fault Refusal :=
  if s.haltIn.pin = level then answered (s.live id)
  else if s.modes.inReset.isSome then answered { s with haltIn := { s.haltIn with pin := level } }
  else answered (s.live fun s => { s with haltIn := s.haltIn.change Config.haltFilter level }.body.close)

/-- DRVFLT_PIN_CHANGE (R115). -/
def execDrvfltPinChange (k : BankIx) (level : Bool) (s : State) : Host.Outcome State Fault Refusal :=
  let f := s.drvflt.get k
  if f.pin = level then answered (s.live id)
  else if s.modes.inReset.isSome then answered { s with drvflt := setVec s.drvflt k { f with pin := level } }
  else answered (s.live fun s =>
    { s with drvflt := setVec s.drvflt k (f.change Config.drvfltFilter level) }.body.close)

end Sys2Proof.Machine
end

