-- ==== Sys2Proof/Machine/Expiry.lean ====
section
/-! DEFINITION. The expiries of the timers of the actuators, the lanes, the start queue and the inputs, each an event of its
own (R128, R129), and the commands that take them.  An expiry that is not due changes nothing (log 2). -/

namespace Sys2Proof.Machine

/-! ## Actuator timers -/

/-- Actuator `a` does `f` in an event of its own. -/
def State.actEvent (a : ActIx) (f : View → Actuator → ActOut) (s : State) : State :=
  Body.close { s := s, e := s.event.act s.env a f }

/-- Expiry of the crossover gap timer (R13). -/
def State.gapExpiry (a : ActIx) (s : State) : State :=
  if Timer.due (s.motion.act a).gapTimer then s.actEvent a Actuator.gapExpired else s

/-- Expiry of the travel timer (R16, R18, R19). -/
def State.travelExpiry (a : ActIx) (s : State) : State :=
  if Timer.due (s.motion.act a).travelTimer then s.actEvent a Actuator.travelExpired else s

/-- Expiry of the settle timer (R16, R17). -/
def State.settleExpiry (a : ActIx) (s : State) : State :=
  if Timer.due (s.motion.act a).settleTimer then s.actEvent a Actuator.settleExpired else s

/-- The pulse timer of an actuator is due. -/
def Actuator.pulseDue (a : Actuator) : Bool := a.pulse.any fun p => p.left == 0

/-- Expiry of the pulse timer (R14). -/
def State.pulseExpiry (a : ActIx) (s : State) : State :=
  if (s.motion.act a).pulseDue then s.actEvent a fun _ x => x.pulseExpired else s

/-! ## Lane timers -/

/-- A lane whose head waits for its delay. -/
def Lane.waits (l : Lane) : Bool := l.state == .waiting && !l.steps.isEmpty

/-- Expiry of the delay timer: in RUN the head of a WAITING lane joins the start queue (R44).  The end of this event, at which
the head starts if it may (R75), is left open: a LANE_PAUSE, a STEP_CANCEL or a LANE_FLUSH that falls together with the
expiry takes the head out again (R44), and any other command finds the event ended (the model's choice, log 24). -/
def State.delayExpiry (l : LaneIx) (s : State) : State :=
  if Timer.due (s.motion.lane l).delayTimer then
    if s.modes.mode == .run && (s.motion.lane l).waits then
      { s with motion := (s.event.joinQueue l).m, openEnd := some l }
    else Body.close { s := s, e := s.event.setLane l { s.motion.lane l with delayTimer := none } }
  else s

/-- The start limit timer of a lane's entry is due. -/
def Motion.limitDue (m : Motion) (l : LaneIx) : Bool := m.queue.any fun q => q.lane == l && Timer.due q.limit

/-- Expiry of a start limit: the entry leaves, and the lane faults with START_LIMIT (R85). -/
def State.limitExpiry (l : LaneIx) (s : State) : State :=
  if s.motion.limitDue l then
    Body.close { s := s, e := (s.event.leaveQueue l).faultLane l .failed .startLimit none }
  else s

/-! ## Input filters -/

/-- Expiry of a stability timer: the filtered level takes the level after inversion (R121). -/
def State.stabilityExpiry (i : InputIx) (s : State) : State :=
  let x := s.inputs.get i
  if Timer.due x.timer then
    (if x.inverted = x.filtered then (s.setInput i { x with timer := none }).body else s.levelChange i x.inverted).close
  else s

/-- Expiry of the HALT# filter (R124). -/
def State.haltExpiry (s : State) : State := if Timer.due s.haltIn.timer then s.haltLevel.close else s

/-- Expiry of a DRVFLTk# filter (R115). -/
def State.drvfltExpiry (k : BankIx) (s : State) : State :=
  if Timer.due (s.drvflt.get k).timer then (s.drvfltLevel k).close else s

/-! ## The commands -/

/-- GAP_TIMER_EXPIRY (R13). -/
def execGapTimerExpiry (a : ActIx) (s : State) : Host.Outcome State Fault Refusal := answered (s.live (State.gapExpiry a))

/-- TRAVEL_TIMER_EXPIRY (R18, R19). -/
def execTravelTimerExpiry (a : ActIx) (s : State) : Host.Outcome State Fault Refusal :=
  answered (s.live (State.travelExpiry a))

/-- SETTLE_TIMER_EXPIRY (R17). -/
def execSettleTimerExpiry (a : ActIx) (s : State) : Host.Outcome State Fault Refusal :=
  answered (s.live (State.settleExpiry a))

/-- PULSE_TIMER_EXPIRY (R14). -/
def execPulseTimerExpiry (a : ActIx) (s : State) : Host.Outcome State Fault Refusal :=
  answered (s.live (State.pulseExpiry a))

/-- DELAY_TIMER_EXPIRY (R44). -/
def execDelayTimerExpiry (l : LaneIx) (s : State) : Host.Outcome State Fault Refusal :=
  answered (s.live (State.delayExpiry l))

/-- START_LIMIT_EXPIRY (R85). -/
def execStartLimitExpiry (l : LaneIx) (s : State) : Host.Outcome State Fault Refusal :=
  answered (s.live (State.limitExpiry l))

/-- STABILITY_TIMER_EXPIRY (R121). -/
def execStabilityTimerExpiry (i : InputIx) (s : State) : Host.Outcome State Fault Refusal :=
  answered (s.live (State.stabilityExpiry i))

/-- HALT_FILTER_EXPIRY (R124). -/
def execHaltFilterExpiry (s : State) : Host.Outcome State Fault Refusal := answered (s.live State.haltExpiry)

/-- DRVFLT_FILTER_EXPIRY (R115). -/
def execDrvfltFilterExpiry (k : BankIx) (s : State) : Host.Outcome State Fault Refusal :=
  answered (s.live (State.drvfltExpiry k))

end Sys2Proof.Machine
end

