-- ==== Sys2Proof/Machine/Serve.lean ====
section
/-! DEFINITION. How the link handles a good frame (R160 to R166): watch, room, replay, and the taking of a new request. -/

namespace Sys2Proof.Machine

/-- What the owning block has made of a request: the event's body, the status, and the content of the reply, read from the
heart of the part after the arbiter's starts (most contents are fixed before them, log 8). -/
structure Served where
  body : Body
  status : Status
  content : Motion → List Byte

/-- A block's answer to a request. -/
abbrev Request := List Byte → State → Served

/-- A refusal: no state of any block but the link changes, and the reply is the status alone (R175, R178). -/
def refuse (st : Status) (s : State) : Served := { body := s.body, status := st, content := fun _ => [] }

/-- A refusal that carries content (R178). -/
def refuseWith (st : Status) (content : List Byte) (s : State) : Served :=
  { body := s.body, status := st, content := fun _ => content }

/-- OK with a body and content fixed in it. -/
def okWith (body : Body) (content : List Byte) : Served := { body := body, status := .ok, content := fun _ => content }

/-- OK with a body, the content read at the end of the event. -/
def okAfter (body : Body) (content : Motion → List Byte) : Served := { body := body, status := .ok, content := content }

/-- A reply frame joins the reply slots, and the event ends with the transmitter's turn (R165, R167). -/
def State.queueReply (fresh : Bool) (frame : List Byte) (s : State) : State :=
  let t : State := { s with link := { s.link with replies := s.link.replies ++ [frame] } }
  t.beginNext fresh

/-- The blocks as the event of a request leaves them: with status OK after the turns of the arbiter, the notices and
attention, as at the end of every event; with any other status as they were, for R175 leaves every block but the link in
the state it had, so that a head held back by R77 waits for another event (log 3). -/
def Served.ended (r : Served) : State :=
  if r.status = .ok then r.body.s.settle (r.body.e.arbitrate r.body.s.env) else r.body.s

/-- The frame of the answer to a request (R164), formed in the event. -/
def Served.frame (seq kind : Byte) (r : Served) : List Byte :=
  frameOf seq (replyKind kind) (r.status.code :: r.content r.ended.motion)

/-- A new request is taken (R162): the event of its body ends, its reply is queued and stored, and its SEQ becomes the last
accepted sequence number. -/
def Served.answer (seq kind : Byte) (r : Served) : State :=
  let t := r.ended
  let frame := r.frame seq kind
  let u : State := { t with link := { t.link with seqRecord := some { seq := seq, reply := frame } } }
  u.queueReply (r.body.s.link.attnSlot == AttnSlot.empty) frame

/-- The link watch is restarted by a good frame when its setting is not 0 (R160, R171). -/
def Link.restartWatch (k : Link) : Link :=
  if k.watchSetting = 0 then k else { k with watchTimer := some k.watchSetting }

/-- A frame is complete: the receiver is in HUNT (R156). -/
def State.frameDone (s : State) : State := { s with link := { s.link with rx := .hunt } }

/-- A good frame is dropped by overrun (R166). -/
def State.overrun (s : State) : State := { s with link := { s.link with overruns := satInc s.link.overruns } }

/-- A retransmission is answered with the stored reply (R163). -/
def State.replay (frame : List Byte) (s : State) : State :=
  (s.settle (s.event.arbitrate s.env)).queueReply (s.link.attnSlot == AttnSlot.empty) frame

/-- A good frame handled in the order of R160: watch, room, replay, take. -/
def State.handleFrame (seq kind : Byte) (req : Request) (payload : List Byte) (s : State) : State :=
  let t : State := { s.frameDone with link := s.frameDone.link.restartWatch }
  if Config.replySlots ≤ t.link.replies.length then t.overrun.body.close
  else match t.link.seqRecord with
    | none => (req payload t).answer seq kind
    | some rec => if rec.seq = seq then t.replay rec.reply else (req payload t).answer seq kind

/-- A request that takes out of the start queue the head whose delay expiry has not ended: LANE_FLUSH or LANE_PAUSE of its
lane, or STEP_CANCEL of its tag.  It falls together with the expiry (R44, log 24). -/
def State.takesHeadOut (s : State) (kind : Byte) (payload : List Byte) : Bool :=
  match s.openEnd with
  | none => false
  | some l =>
    (kind == 0x23 || kind == 0x24) && payload == [byteOf l.val] ||
      kind == 0x22 && (s.motion.lane l).head?.any fun h => payload == byteOf l.val :: bytes16 h.tag

/-- A good frame completes at the receiver: none during a hard reset (R147), discarded while a restart is pending (R159),
handled otherwise (R160). -/
def State.goodFrame (seq kind : Byte) (req : Request) (payload : List Byte) (s : State) : State :=
  s.liveAs (s.takesHeadOut kind payload) fun s =>
    if s.modes.pendingRestart.isSome then s.frameDone.body.close else s.handleFrame seq kind req payload

/-- The answer to a KIND that names no request (R162, R178). -/
def unknownRequest : Request := fun _ s => refuse .unknownKind s

/-- A request with an empty payload; any other length is BAD_LENGTH (R174). -/
def noPayload (f : State → Served) : Request := fun payload s =>
  match payload with
  | [] => f s
  | _ :: _ => refuse .badLength s

end Sys2Proof.Machine
end

