-- ==== Sys2Proof/Machine/Replies.lean ====
section
/-! DEFINITION. The contents of the longer replies: configuration, actuator, lane, status, lines and notice records
(R179 to R185). -/

namespace Sys2Proof.Machine

/-- One guard of a configuration (R179). -/
def Guard.bytes (g : Guard) : List Byte := [byteOf g.other.val, g.required.code]

/-- The configuration part of an ACT_READ reply, in the layout of R179. -/
def ActConfig.bytes (a : ActIx) (c : ActConfig) : List Byte :=
  [byteOf a.val, c.kind.code, c.sensing.code] ++ bytesOf c.travelLimit ++ bytesOf c.settleTime ++ bytesOf c.crossoverGap
    ++ bytesOf c.pulseLength
    ++ [c.faultAction.code, c.stopAction.code, c.safeAction.code, byteOf c.guards.length]
    ++ c.guards.flatMap Guard.bytes

/-- The ACT_READ reply after the status byte (R33, R181). -/
def State.actBytes (s : State) (a : ActIx) : List Byte :=
  let x := s.motion.act a
  let v := s.env.view a
  x.cfg.bytes a
    ++ [x.state.code, x.position.code, flagByte x.supervised, optByte End.code x.target, x.owner.code,
        optByte ActFault.code x.fault, flagByte x.lineA, flagByte x.lineB, flagByte v.x, flagByte v.r]
    ++ bytes32 (s.time - x.entryTime)

/-- The running part of a LANE_READ reply: there when the head is RUNNING (R65, R182). -/
def Lane.runningBytes (l : Lane) : List Byte :=
  match l.head? with
  | none => []
  | some h =>
    if h.run == .running then
      bytes32 (h.startTime.getD 0) ++ byteOf h.moves.length :: h.results.flatMap fun p => [byteOf p.1.val, p.2.code]
    else []

/-- The LANE_READ reply after the status byte (R65, R182). -/
def Lane.bytes (l : Lane) : List Byte :=
  [l.state.code, optByte LaneFault.code l.fault, optByte (fun a : ActIx => byteOf a.val) l.failedAct,
    flagByte l.pausePending]
    ++ bytes16 l.cycleCount
    ++ [byteOf l.steps.length, optByte (fun h : Step => h.run.code) l.head?]
    ++ l.runningBytes
    ++ l.steps.flatMap fun h => bytes16 h.tag

/-- The free count and the depth of a lane (R38, R59, R61, R62). -/
def Motion.countBytes (m : Motion) (l : LaneIx) : List Byte := [byteOf m.poolFree, byteOf (m.held l)]

/-- The four latches as one byte (R176). -/
def State.latchByte (s : State) : Byte := levelByte s.latches.toList

/-- The eight marks as one byte (R176). -/
def Motion.markByte (m : Motion) : Byte := levelByte m.marks.toList

/-- The STATUS reply after the status byte (R149, R183). -/
def State.statusBytes (s : State) : List Byte :=
  [s.modes.mode.code, optByte HaltCause.code s.modes.haltCause, s.modes.resetCause.code, flagByte s.haltIn.active,
    s.latchByte]
    ++ allLanes.map (fun l => (s.motion.lane l).state.code)
    ++ [byteOf s.motion.poolFree, byteOf s.notices.waiting.length, byteOf s.notices.stack.length, s.notices.lost,
        s.link.rxErrors, s.link.overruns, s.motion.markByte]
    ++ bytes32 s.time

/-- The IO_READ reply after the status byte (R125, R183). -/
def State.ioBytes (s : State) : List Byte :=
  levelBytes (s.inputs.toList.map (·.raw)) ++ levelBytes (s.inputs.toList.map (·.filtered)) ++ levelBytes s.commanded
    ++ levelBytes s.actual
    ++ [s.latchByte, flagByte s.haltIn.active, levelByte (s.drvflt.toList.map (·.active))]

/-- The IDENT reply after the status byte (R150, R183). -/
def identBytes : List Byte := [0x6E, 0x01, 16, 4, 64, 32, 8]

/-- A notice record at a place: 0 pending, 1 to 8 on the stack (R184). -/
def Notice.bytes (place : Nat) (n : Notice) : List Byte :=
  bytes16 n.id ++ [n.cls.code, optByte byteOf n.source, byteOf n.priority.val, flagByte n.nest, n.count, n.detail]
    ++ bytes32 n.firstTime ++ bytes32 n.lastTime
    ++ (match n.tags with
      | none => [0, 0, 0, 0, 0]
      | some (first, last) => 1 :: (bytes16 first ++ bytes16 last))
    ++ [byteOf place]

/-- The PEEK reply after the status byte (R103, R185). -/
def NoticeUnit.peekBytes (u : NoticeUnit) : List Byte :=
  [byteOf u.waiting.length, byteOf u.stack.length, u.lost] ++ bytes16 u.topId
    ++ match u.next?, u.waiting with
      | some r, _ => 1 :: r.bytes 0
      | none, r :: _ => 0 :: r.bytes 0
      | none, [] => []

end Sys2Proof.Machine
end

