-- ==== Sys2Proof/Machine/ReqIo.lean ====
section
/-! DEFINITION. The requests of the input and output stages: INPUT_CONFIG, IO_READ, LINES_SET and BANK_CLEAR (spec 05). -/

namespace Sys2Proof.Machine

/-- INPUT_CONFIG (R123). -/
def reqInputConfig : Request := fun payload s =>
  match payload with
  | [b, time, inv, w] =>
    match indexOf 32 b, flagOf inv, Watch.ofCode w with
    | some i, some invert, some watch =>
      let t := s.setInput i { s.inputs.get i with filterTime := time, invert := invert, watch := watch }
      okWith (t.retime i) []
    | _, _, _ => refuse .badArg s
  | _ => refuse .badLength s

/-- IO_READ (R125). -/
def reqIoRead : Request := noPayload fun s => okWith s.body s.ioBytes

/-! ## Direct lines (R112, R114) -/

/-- OUT 2n of an actuator is managed: the kind is managed (R112). -/
def Kind.managesA (k : Kind) : Bool := k.managed

/-- OUT 2n+1 of an actuator is managed: the kind has two coils (R112). -/
def Kind.managesB (k : Kind) : Bool := k.double

/-- A line of a set of levels: line n stands at the bit of value 2^n (R176). -/
def lineBit (w : BitVec 32) (n : Nat) : Bool := w.getLsbD n

/-- A line of the mask is managed (R114, check 1). -/
def Motion.masksManaged (m : Motion) (mask : BitVec 32) : Bool :=
  allActs.any fun a =>
    (lineBit mask (2 * a.val) && (m.act a).cfg.kind.managesA)
      || (lineBit mask (2 * a.val + 1) && (m.act a).cfg.kind.managesB)

/-- The masked lines of actuator `a` take their values (R114). -/
def Actuator.writeLines (mask values : BitVec 32) (a : ActIx) (x : Actuator) : Actuator :=
  { x with
    lineA := if lineBit mask (2 * a.val) then lineBit values (2 * a.val) else x.lineA
    lineB := if lineBit mask (2 * a.val + 1) then lineBit values (2 * a.val + 1) else x.lineB }

/-- Every masked line takes its value (R114). -/
def Motion.writeLines (m : Motion) (mask values : BitVec 32) : Motion :=
  allActs.foldl (fun m a => m.setAct a ((m.act a).writeLines mask values a)) m

/-- LINES_SET (R114). -/
def reqLinesSet : Request := fun payload s =>
  match payload with
  | [m3, m2, m1, m0, v3, v2, v1, v0] =>
    let mask := word32 m3 m2 m1 m0
    if s.motion.masksManaged mask then refuse .badArg s
    else if s.modes.mode == .halted then refuse .haltActive s
    else
      let t : State := { s with motion := s.motion.writeLines mask (word32 v3 v2 v1 v0) }
      okWith t.body (levelBytes t.commanded)
  | _ => refuse .badLength s

/-! ## BANK_CLEAR (R119) -/

/-- A managed actuator is FAULTED with either coil commanded on (R119, check 3).  Line B of a SINGLE actuator is no coil. -/
def Actuator.faultedOn (a : Actuator) : Bool :=
  a.state == .faulted && ((a.cfg.kind.managesA && a.lineA) || (a.cfg.kind.managesB && a.lineB))

/-- The latch of a bank cleared, the managed actuators of the bank in REST with both coils commanded off (R119). -/
def State.clearLatch (k : BankIx) (s : State) : State :=
  let off := fun (m : Motion) (a : ActIx) =>
    if (m.act a).managed && (m.act a).state == .rest then m.setAct a (m.act a).coilsOff else m
  { s with motion := (bankActs k).foldl off s.motion, latches := setVec s.latches k false }

/-- BANK_CLEAR (R119). -/
def reqBankClear : Request := fun payload s =>
  match payload with
  | [b] =>
    match indexOf 4 b with
    | none => refuse .badArg s
    | some k =>
      if (s.drvflt.get k).active then refuse .wrongState s
      else if s.latches.get k && (bankActs k).any (fun a => (s.motion.act a).faultedOn) then refuse .busy s
      else if s.latches.get k then okWith (s.clearLatch k).body [(s.clearLatch k).latchByte]
      else okWith s.body [s.latchByte]
  | _ => refuse .badLength s

/-! ## The commands -/

/-- INPUT_CONFIG (R123). -/
def execInputConfig (seq : Byte) (payload : List Byte) (s : State) : Host.Outcome State Fault Refusal :=
  answered (s.goodFrame seq 0x18 reqInputConfig payload)

/-- IO_READ (R125). -/
def execIoRead (seq : Byte) (payload : List Byte) (s : State) : Host.Outcome State Fault Refusal :=
  answered (s.goodFrame seq 0x19 reqIoRead payload)

/-- LINES_SET (R114). -/
def execLinesSet (seq : Byte) (payload : List Byte) (s : State) : Host.Outcome State Fault Refusal :=
  answered (s.goodFrame seq 0x1A reqLinesSet payload)

/-- BANK_CLEAR (R119). -/
def execBankClear (seq : Byte) (payload : List Byte) (s : State) : Host.Outcome State Fault Refusal :=
  answered (s.goodFrame seq 0x1B reqBankClear payload)

end Sys2Proof.Machine
end

