-- ==== Sys2Proof/Machine/ReqActuator.lean ====
section
/-! DEFINITION. The requests of the actuator table: ACT_CONFIG, ACT_READ, JOG and ACT_CLEAR (spec 01). -/

namespace Sys2Proof.Machine

/-! ## ACT_CONFIG (R3, R4, R179) -/

/-- A duration in its range. -/
def durationOf (lo hi : Nat) (b1 b0 : Byte) : Option Nat :=
  let n := (word16 b1 b0).toNat
  if lo ≤ n ∧ n ≤ hi then some n else none

/-- The guards a request carries: each in range, none naming the configured actuator (R3). -/
def guardsOf (self : ActIx) : List Byte → Option (List Guard)
  | [] => some []
  | [_] => none
  | a :: p :: rest => do
    let other ← indexOf 16 a
    let required ← End.ofCode p
    let more ← guardsOf self rest
    if other = self then none else some ({ other := other, required := required } :: more)

/-- No actuator twice (R3, R37). -/
def distinctActs : List ActIx → Bool
  | [] => true
  | a :: rest => !rest.contains a && distinctActs rest

/-- The actuator and the record of an ACT_CONFIG payload, or nothing where R3 gives BAD_ARG. -/
def configOf (a kind sensing t1 t0 s1 s0 g1 g0 p1 p0 fault stop safe count : Byte) (guards : List Byte) :
    Option (ActIx × ActConfig) := do
  let act ← indexOf 16 a
  let kind ← Kind.ofCode kind
  let sensing ← Sensing.ofCode sensing
  let travel ← durationOf 20 30000 t1 t0
  let settle ← durationOf 0 2000 s1 s0
  let gap ← durationOf 0 500 g1 g0
  let pulse ← durationOf 20 1000 p1 p0
  let faultAction ← Action.ofCode fault
  let stopAction ← Action.ofCode stop
  let safeAction ← SafeAction.ofCode safe
  let gs ← guardsOf act guards
  if 4 < count.toNat then none
  else if !distinctActs (gs.map (·.other)) then none
  else some (act,
    { kind := kind, sensing := sensing, travelLimit := travel, settleTime := settle, crossoverGap := gap,
      pulseLength := pulse, faultAction := faultAction, stopAction := stopAction, safeAction := safeAction, guards := gs })

/-- Some held step has a move on an actuator that meets `p` (R3). -/
def Motion.anyMove (m : Motion) (p : Move → Bool) : Bool :=
  allLanes.any fun l => (m.lane l).steps.any fun h => h.moves.any p

/-- The BUSY checks of R3. -/
def Motion.configBusy (m : Motion) (a : ActIx) (kind : Kind) : Bool :=
  (m.act a).owner != .none || (m.act a).moving
    || (!kind.managed && m.anyMove fun mv => mv.act == a)
    || (kind == .single && m.anyMove fun mv => mv.act == a && mv.target == .release)

/-- ACT_CONFIG (R3, R4). -/
def reqActConfig : Request := fun payload s =>
  match payload with
  | a :: k :: sn :: t1 :: t0 :: s1 :: s0 :: g1 :: g0 :: p1 :: p0 :: fa :: st :: sa :: count :: guards =>
    if guards.length ≠ 2 * count.toNat then refuse .badLength s
    else match configOf a k sn t1 t0 s1 s0 g1 g0 p1 p0 fa st sa count guards with
      | none => refuse .badArg s
      | some (act, cfg) =>
        if s.modes.mode != .setup then refuse .wrongMode s
        else if s.motion.configBusy act cfg.kind then refuse .busy s
        else okWith { s := s, e := s.event.setAct act ((s.motion.act act).configured (s.env.view act) cfg) } []
  | _ => refuse .badLength s

/-! ## ACT_READ, JOG, ACT_CLEAR -/

/-- ACT_READ (R33). -/
def reqActRead : Request := fun payload s =>
  match payload with
  | [b] =>
    match indexOf 16 b with
    | none => refuse .badArg s
    | some a => okWith s.body (s.actBytes a)
  | _ => refuse .badLength s

/-- A move's target on an actuator: RELEASE is refused on a SINGLE actuator (R31, R37). -/
def Actuator.takesMove (t : MoveTarget) (a : Actuator) : Bool :=
  a.managed && !(t == .release && a.cfg.kind == .single)

/-- JOG (R31). -/
def reqJog : Request := fun payload s =>
  match payload with
  | [b, t, f] =>
    match indexOf 16 b, MoveTarget.ofCode t, flagOf f with
    | some a, some target, some force =>
      let x := s.motion.act a
      if !x.takesMove target then refuse .badArg s
      else if s.modes.mode != .setup then refuse .wrongMode s
      else if x.state == .faulted then refuse .wrongState s
      else if x.owner != .none || x.state != .rest then refuse .busy s
      else if !force && !s.motion.guardsHold a then refuse .guard s
      else okWith { s := s, e := s.event.act s.env a fun v y => y.startMove v .jog target } []
    | _, _, _ => refuse .badArg s
  | _ => refuse .badLength s

/-- ACT_CLEAR (R26). -/
def reqActClear : Request := fun payload s =>
  match payload with
  | [b] =>
    match indexOf 16 b with
    | none => refuse .badArg s
    | some a =>
      if (s.motion.act a).state == .faulted then
        okWith { s := s, e := s.event.setAct a ((s.motion.act a).cleared (s.env.view a)) } []
      else refuse .wrongState s
  | _ => refuse .badLength s

/-! ## The commands -/

/-- ACT_CONFIG (R3, R4). -/
def execActConfig (seq : Byte) (payload : List Byte) (s : State) : Host.Outcome State Fault Refusal :=
  answered (s.goodFrame seq 0x10 reqActConfig payload)

/-- ACT_READ (R33). -/
def execActRead (seq : Byte) (payload : List Byte) (s : State) : Host.Outcome State Fault Refusal :=
  answered (s.goodFrame seq 0x11 reqActRead payload)

/-- JOG (R31, R32). -/
def execJog (seq : Byte) (payload : List Byte) (s : State) : Host.Outcome State Fault Refusal :=
  answered (s.goodFrame seq 0x12 reqJog payload)

/-- ACT_CLEAR (R26). -/
def execActClear (seq : Byte) (payload : List Byte) (s : State) : Host.Outcome State Fault Refusal :=
  answered (s.goodFrame seq 0x13 reqActClear payload)

end Sys2Proof.Machine
end

