-- ==== Sys2Proof/Machine/ReqLane.lean ====
section
/-! DEFINITION. The requests of the lane engine and the start arbiter: LANE_CONFIG, STEP_POST, STEP_CANCEL, LANE_FLUSH,
LANE_PAUSE, LANE_RESUME, LANE_ABORT, LANE_READ and MARK_SET (spec 02, 03). -/

namespace Sys2Proof.Machine

/-! ## LANE_CONFIG (R42) -/

def reqLaneConfig : Request := fun payload s =>
  match payload with
  | [b, p, c1, c0, n] =>
    match indexOf 4 b, FaultPolicy.ofCode p, flagOf n with
    | some l, some policy, some notice =>
      if s.modes.mode != .setup then refuse .wrongMode s
      else okWith
        { s := s, e := s.event.setLane l { s.motion.lane l with
            policy := policy, cycleStop := word16 c1 c0, emptyNotice := notice, cycleCount := 0 } } []
    | _, _, _ => refuse .badArg s
  | _ => refuse .badLength s

/-! ## STEP_POST (R37, R38, R180) -/

/-- The start condition of a posting (R35, R180); bytes that the condition does not use are not examined. -/
def condOf (code a3 a2 a1 a0 : Byte) : Option StartCond :=
  match code.toNat with
  | 0 => some .next
  | 1 =>
    let d := (word32 a3 a2 a1 a0).toNat
    if d ≤ 600000 then some (.delay d) else none
  | 2 => some (.atTime (word32 a3 a2 a1 a0))
  | 3 => do
    let i ← indexOf 32 a3
    let level ← flagOf a2
    some (.onInput i level)
  | 4 => do
    let k ← indexOf 8 a3
    some (.onMark k)
  | _ => none

/-- A start limit: 0, or 10 to 60,000 (R34, R37). -/
def limitOf (b1 b0 : Byte) : Option Nat :=
  let n := (word16 b1 b0).toNat
  if n = 0 ∨ (10 ≤ n ∧ n ≤ 60000) then some n else none

/-- A completion mark: absent, or 0 to 7 (R37, R176). -/
def markOf (b : Byte) : Option (Option MarkIx) :=
  if b = absentByte then some none else (indexOf 8 b).map some

/-- The moves of a posting, each on an actuator that takes it (R37). -/
def movesOf (m : Motion) : List Byte → Option (List Move)
  | [] => some []
  | [_] => none
  | a :: t :: rest => do
    let act ← indexOf 16 a
    let target ← MoveTarget.ofCode t
    let more ← movesOf m rest
    if (m.act act).takesMove target then some ({ act := act, target := target } :: more) else none

/-- The lane and the step of a STEP_POST payload, or nothing where R37 gives BAD_ARG.  The step is HELD, without results;
the reached indicator is not tested yet. -/
def stepOf (m : Motion) (l t1 t0 code a3 a2 a1 a0 l1 l0 flags mk count : Byte) (moves : List Byte) :
    Option (LaneIx × Step) := do
  let lane ← indexOf 4 l
  let cond ← condOf code a3 a2 a1 a0
  let limit ← limitOf l1 l0
  let mark ← markOf mk
  let mvs ← movesOf m moves
  if 7 < flags.toNat then none
  else if count.toNat = 0 ∨ 8 < count.toNat then none
  else if !distinctActs (mvs.map (·.act)) then none
  else some (lane,
    { tag := word16 t1 t0, cond := cond, startLimit := limit
      report := flags.getLsbD 0, recirculate := flags.getLsbD 1, cycleEnd := flags.getLsbD 2
      mark := mark, moves := mvs, run := .held, results := [], startTime := none, firstFailed := none, reached := false })

/-- A step is appended to its lane out of a free entry, and a step that finds the lane EMPTY is evaluated (R38). -/
def Event.post (v : Env) (l : LaneIx) (h : Step) (e : Event) : Event :=
  let ln := e.m.lane l
  let m := e.m.setLane l { ln with steps := ln.steps ++ [h.testReached v.time] }
  let e : Event := { e with m := { m with poolFree := m.poolFree - 1 } }
  if ln.state == .empty then e.evaluate v l else e

/-- STEP_POST (R37, R38). -/
def reqStepPost : Request := fun payload s =>
  match payload with
  | l :: t1 :: t0 :: code :: a3 :: a2 :: a1 :: a0 :: l1 :: l0 :: flags :: mk :: count :: moves =>
    if moves.length ≠ 2 * count.toNat then refuse .badLength s
    else match stepOf s.motion l t1 t0 code a3 a2 a1 a0 l1 l0 flags mk count moves with
      | none => refuse .badArg s
      | some (lane, h) =>
        if Config.laneDepth ≤ s.motion.held lane then refuse .laneFull s
        else if s.motion.poolFree = 0 then refuse .poolFull s
        else
          let e := s.event.post s.env lane h
          okWith { s := s, e := e } (e.m.countBytes lane)
  | _ => refuse .badLength s

/-! ## STEP_CANCEL and LANE_FLUSH (R61, R62) -/

/-- The first step of a list that carries the tag removed. -/
def dropTag (tag : Tag) : List Step → Option (List Step)
  | [] => none
  | h :: rest => if h.tag = tag then some rest else (dropTag tag rest).map (h :: ·)

/-- The head of a lane is passed over by a cancel: RUNNING, or the head of a FAULTED lane (R61). -/
def Lane.headKept (l : Lane) : Bool := l.state == .running || l.state == .faulted

/-- The effect of a cancel on a lane, or nothing where no step qualifies (R61). -/
def Event.cancel (v : Env) (l : LaneIx) (tag : Tag) (e : Event) : Option Event :=
  match (e.m.lane l).steps with
  | [] => none
  | h :: rest =>
    if h.tag = tag && !(e.m.lane l).headKept then
      (if (e.m.lane l).state == .paused then some (e.keepSteps l rest) else some (e.dropHead v l))
    else (dropTag tag rest).map fun kept => e.keepSteps l (h :: kept)

/-- STEP_CANCEL (R61). -/
def reqStepCancel : Request := fun payload s =>
  match payload with
  | [b, t1, t0] =>
    match indexOf 4 b with
    | none => refuse .badArg s
    | some l =>
      match s.event.cancel s.env l (word16 t1 t0) with
      | none => refuse .notFound s
      | some e => okWith { s := s, e := e } (e.m.countBytes l)
  | _ => refuse .badLength s

/-- The effect of a flush on a lane (R62). -/
def Event.flush (l : LaneIx) (e : Event) : Event :=
  match (e.m.lane l).state with
  | .running => e.keepSteps l ((e.m.lane l).steps.take 1)
  | .faulted => e.keepSteps l ((e.m.lane l).steps.take 1)
  | .paused => e.keepSteps l []
  | .waiting =>
    let e := (e.leaveQueue l).keepSteps l []
    e.setLane l { e.m.lane l with state := .empty, delayTimer := none }
  | .queued =>
    let e := (e.leaveQueue l).keepSteps l []
    e.setLane l { e.m.lane l with state := .empty, delayTimer := none }
  | .empty => e

/-- LANE_FLUSH (R62). -/
def reqLaneFlush : Request := fun payload s =>
  match payload with
  | [b] =>
    match indexOf 4 b with
    | none => refuse .badArg s
    | some l =>
      let e := s.event.flush l
      okWith { s := s, e := e } (e.m.countBytes l)
  | _ => refuse .badLength s

/-! ## LANE_PAUSE, LANE_RESUME, LANE_ABORT (R56 to R60) -/

/-- The effect of a pause on a lane, or nothing where R56 gives WRONG_STATE. -/
def Event.pause (l : LaneIx) (e : Event) : Option Event :=
  match (e.m.lane l).state with
  | .empty => some (e.setLane l { e.m.lane l with state := .paused })
  | .waiting => some (e.holdLane l .paused)
  | .queued => some (e.holdLane l .paused)
  | .running => some (e.setLane l { e.m.lane l with pausePending := true })
  | .paused => none
  | .faulted => none

/-- LANE_PAUSE (R56). -/
def reqLanePause : Request := fun payload s =>
  match payload with
  | [b] =>
    match indexOf 4 b with
    | none => refuse .badArg s
    | some l =>
      match s.event.pause l with
      | none => refuse .wrongState s
      | some e => okWith { s := s, e := e } []
  | _ => refuse .badLength s

/-- The fault code and the failed actuator become absent (R58, R59). -/
def Lane.faultGone (l : Lane) : Lane := { l with fault := none, failedAct := none }

/-- The effect of a resume on a lane, or nothing where R57 gives WRONG_STATE (R57 to R59). -/
def Event.resume (v : Env) (l : LaneIx) (skip : Bool) (e : Event) : Option Event :=
  match (e.m.lane l).state with
  | .paused =>
    if (e.m.lane l).steps.isEmpty then some (e.setLane l { e.m.lane l with state := .empty }) else some (e.evaluate v l)
  | .faulted =>
    if skip then some ((e.setLane l (e.m.lane l).faultGone).dropHead v l)
    else some ((e.setLane l ((e.m.lane l).faultGone.mapHead Step.again)).evaluate v l)
  | .empty => none
  | .waiting => none
  | .queued => none
  | .running => none

/-- LANE_RESUME (R57 to R59); its counts are those at the end of the event (R187, log 8).  The free count so includes the entry
of a step of another lane that starts and completes at once in this event: the table of R187 gives the entries free after the
request, and its sentence names the resumed head alone as able to change the counts (the model's choice, log 26). -/
def reqLaneResume : Request := fun payload s =>
  match payload with
  | [b, o] =>
    match indexOf 4 b, resumeSkip o with
    | some l, some skip =>
      match s.event.resume s.env l skip with
      | none => refuse .wrongState s
      | some e => okAfter { s := s, e := e } fun m => m.countBytes l
    | _, _ => refuse .badArg s
  | _ => refuse .badLength s

/-- The effect of an abort on a lane, or nothing where R60 gives WRONG_STATE. -/
def Event.abort (v : Env) (l : LaneIx) (e : Event) : Option Event :=
  match (e.m.lane l).state with
  | .running => some (e.abortStep v l)
  | .waiting => some (e.holdLane l .paused)
  | .queued => some (e.holdLane l .paused)
  | .empty => none
  | .paused => none
  | .faulted => none

/-- LANE_ABORT (R60). -/
def reqLaneAbort : Request := fun payload s =>
  match payload with
  | [b] =>
    match indexOf 4 b with
    | none => refuse .badArg s
    | some l =>
      match s.event.abort s.env l with
      | none => refuse .wrongState s
      | some e => okWith { s := s, e := e } []
  | _ => refuse .badLength s

/-! ## LANE_READ and MARK_SET (R65, R82) -/

/-- LANE_READ (R65). -/
def reqLaneRead : Request := fun payload s =>
  match payload with
  | [b] =>
    match indexOf 4 b with
    | none => refuse .badArg s
    | some l => okWith s.body (s.motion.lane l).bytes
  | _ => refuse .badLength s

/-- MARK_SET (R82): the marks of its reply include a consumption by a start in the event. -/
def reqMarkSet : Request := fun payload s =>
  match payload with
  | [b, x] =>
    match indexOf 8 b, flagOf x with
    | some k, some level =>
      okAfter { s := s, e := { s.event with m := s.motion.setMark k level } } fun m => [m.markByte]
    | _, _ => refuse .badArg s
  | _ => refuse .badLength s

/-! ## The commands -/

/-- LANE_CONFIG (R42). -/
def execLaneConfig (seq : Byte) (payload : List Byte) (s : State) : Host.Outcome State Fault Refusal :=
  answered (s.goodFrame seq 0x20 reqLaneConfig payload)

/-- STEP_POST (R37, R38). -/
def execStepPost (seq : Byte) (payload : List Byte) (s : State) : Host.Outcome State Fault Refusal :=
  answered (s.goodFrame seq 0x21 reqStepPost payload)

/-- STEP_CANCEL (R61). -/
def execStepCancel (seq : Byte) (payload : List Byte) (s : State) : Host.Outcome State Fault Refusal :=
  answered (s.goodFrame seq 0x22 reqStepCancel payload)

/-- LANE_FLUSH (R62). -/
def execLaneFlush (seq : Byte) (payload : List Byte) (s : State) : Host.Outcome State Fault Refusal :=
  answered (s.goodFrame seq 0x23 reqLaneFlush payload)

/-- LANE_PAUSE (R56). -/
def execLanePause (seq : Byte) (payload : List Byte) (s : State) : Host.Outcome State Fault Refusal :=
  answered (s.goodFrame seq 0x24 reqLanePause payload)

/-- LANE_RESUME (R57 to R59). -/
def execLaneResume (seq : Byte) (payload : List Byte) (s : State) : Host.Outcome State Fault Refusal :=
  answered (s.goodFrame seq 0x25 reqLaneResume payload)

/-- LANE_ABORT (R60). -/
def execLaneAbort (seq : Byte) (payload : List Byte) (s : State) : Host.Outcome State Fault Refusal :=
  answered (s.goodFrame seq 0x26 reqLaneAbort payload)

/-- LANE_READ (R65). -/
def execLaneRead (seq : Byte) (payload : List Byte) (s : State) : Host.Outcome State Fault Refusal :=
  answered (s.goodFrame seq 0x27 reqLaneRead payload)

/-- MARK_SET (R82). -/
def execMarkSet (seq : Byte) (payload : List Byte) (s : State) : Host.Outcome State Fault Refusal :=
  answered (s.goodFrame seq 0x28 reqMarkSet payload)

end Sys2Proof.Machine
end

