-- ==== Sys2Proof/Machine/ReqMode.lean ====
section
/-! DEFINITION. The requests of mode control, the timebase and the link: IDENT, STATUS, ENTER_SETUP, ENTER_RUN, RESTART,
SET_TIME and LINK_WATCH (spec 06 to 08). -/

namespace Sys2Proof.Machine

/-! ## Reads -/

/-- IDENT (R150). -/
def reqIdent : Request := noPayload fun s => okWith s.body identBytes

/-- The three counts that STATUS clears (R149). -/
def State.countsCleared (s : State) : State :=
  { s with notices := { s.notices with lost := 0 }, link := { s.link with rxErrors := 0, overruns := 0 } }

/-- STATUS (R149): the counts are placed in the reply and then cleared. -/
def reqStatus : Request := noPayload fun s => okWith s.countsCleared.body s.statusBytes

/-! ## Modes (R134 to R137) -/

/-- Some actuator has an owner (R134, R136). -/
def Motion.anyOwned (m : Motion) : Bool := allActs.any fun a => (m.act a).owner != .none

/-- Some actuator has owner SAFE (R137). -/
def Motion.anySafe (m : Motion) : Bool := allActs.any fun a => (m.act a).owner == .safe

/-- Some lane is RUNNING (R136). -/
def Motion.anyRunning (m : Motion) : Bool := allLanes.any fun l => (m.lane l).state == .running

/-- The first guard of a managed actuator that names an actuator which is not managed (R134, check 4). -/
def Motion.badGuard? (m : Motion) (a : ActIx) : Option Guard :=
  if (m.act a).managed then (m.act a).cfg.guards.find? fun g => !(m.act g.other).managed else none

/-- The lowest-numbered managed actuator with such a guard, and the actuator it names (R134). -/
def Motion.notReady? (m : Motion) : Option (ActIx × ActIx) :=
  allActs.findSome? fun a => (m.badGuard? a).map fun g => (a, g.other)

/-- The actuators that fault CONFLICT on entry to RUN (R135, item 1). -/
def State.entryConflicts (s : State) : List ActIx :=
  allActs.filter fun a => (s.motion.act a).state == .rest && (s.motion.act a).inConflict (s.env.view a)

/-- A WAITING lane evaluates its head on entry to RUN (R45). -/
def Event.wakeLane (v : Env) (l : LaneIx) (e : Event) : Event :=
  if (e.m.lane l).state == .waiting then e.evaluate v l else e

/-- The accepted ENTER_RUN (R135). -/
def State.toRun (s : State) : Body :=
  let e := allActs.foldl (fun e a => e.act s.env a Actuator.enterRun) s.event
  let t := { s with modes := { s.modes with mode := .run, haltCause := none } }
  { s := t, e := allLanes.foldl (fun e l => e.wakeLane t.env l) e }

/-- ENTER_RUN (R134, R135). -/
def reqEnterRun : Request := noPayload fun s =>
  if s.modes.mode == .run then refuse .wrongState s
  else if s.haltIn.active then refuse .haltActive s
  else if s.motion.anyOwned then refuse .busy s
  else match s.motion.notReady? with
    | some (a, b) => refuseWith .notReady [byteOf a.val, byteOf b.val] s
    | none => okWith s.toRun [byteOf s.entryConflicts.length]

/-- The accepted ENTER_SETUP from RUN (R136). -/
def State.runToSetup (s : State) : Body :=
  { s := { s with modes := { s.modes with mode := .setup } }
    e := allLanes.foldl (fun e l => e.dropLane l) s.event.clearQueue }

/-- ENTER_SETUP (R136, R137). -/
def reqEnterSetup : Request := noPayload fun s =>
  match s.modes.mode with
  | .setup => refuse .wrongState s
  | .run => if s.motion.anyRunning || s.motion.anyOwned then refuse .busy s else okWith s.runToSetup []
  | .halted =>
    if s.haltIn.active then refuse .haltActive s
    else if s.motion.anySafe then refuse .busy s
    else
      let t : State := { s with modes := { s.modes with mode := .setup, haltCause := none } }
      okWith t.body []

/-! ## Restart (R144) -/

/-- RESTART: the level is recorded as the pending restart (R144). -/
def reqRestart : Request := fun payload s =>
  match payload with
  | [b] =>
    match RestartLevel.ofCode b with
    | none => refuse .badArg s
    | some level =>
      let t : State := { s with modes := { s.modes with pendingRestart := some level } }
      okWith t.body [level.code]
  | _ => refuse .badLength s

/-! ## Machine time (R132) -/

/-- The actuators with their state entry times moved (R132, item 2). -/
def Motion.shiftEntry (m : Motion) (by_ : Time) : Motion :=
  { m with acts := mapVec (fun x => { x with entryTime := x.entryTime + by_ }) m.acts }

/-- Every held step's reached indicator tested (R131). -/
def Motion.testReached (m : Motion) (now : Time) : Motion :=
  { m with lanes := mapVec (fun x => { x with steps := x.steps.map (Step.testReached now) }) m.lanes }

/-- The accepted SET_TIME (R132). -/
def State.setClock (t : Time) (s : State) : State :=
  { s with time := t, motion := (s.motion.shiftEntry (t - s.time)).testReached t }

/-- SET_TIME (R132). -/
def reqSetTime : Request := fun payload s =>
  match payload with
  | [b3, b2, b1, b0] =>
    let t := word32 b3 b2 b1 b0
    if s.modes.mode != .setup then refuse .wrongMode s else okWith (s.setClock t).body (bytes32 t)
  | _ => refuse .badLength s

/-! ## Link watch (R170) -/

/-- LINK_WATCH (R170). -/
def reqLinkWatch : Request := fun payload s =>
  match payload with
  | [hi, lo] =>
    let n := (word16 hi lo).toNat
    if (1 ≤ n ∧ n < 50) ∨ 10000 < n then refuse .badArg s
    else
      let t : State := { s with link := { s.link with watchSetting := n, watchTimer := Timer.start n } }
      okWith t.body (bytesOf n)
  | _ => refuse .badLength s

/-! ## The commands -/

/-- IDENT (R150). -/
def execIdent (seq : Byte) (payload : List Byte) (s : State) : Host.Outcome State Fault Refusal :=
  answered (s.goodFrame seq 0x01 reqIdent payload)

/-- STATUS (R149). -/
def execStatus (seq : Byte) (payload : List Byte) (s : State) : Host.Outcome State Fault Refusal :=
  answered (s.goodFrame seq 0x02 reqStatus payload)

/-- ENTER_SETUP (R136, R137). -/
def execEnterSetup (seq : Byte) (payload : List Byte) (s : State) : Host.Outcome State Fault Refusal :=
  answered (s.goodFrame seq 0x03 reqEnterSetup payload)

/-- ENTER_RUN (R134, R135). -/
def execEnterRun (seq : Byte) (payload : List Byte) (s : State) : Host.Outcome State Fault Refusal :=
  answered (s.goodFrame seq 0x04 reqEnterRun payload)

/-- RESTART (R144). -/
def execRestart (seq : Byte) (payload : List Byte) (s : State) : Host.Outcome State Fault Refusal :=
  answered (s.goodFrame seq 0x05 reqRestart payload)

/-- SET_TIME (R132). -/
def execSetTime (seq : Byte) (payload : List Byte) (s : State) : Host.Outcome State Fault Refusal :=
  answered (s.goodFrame seq 0x06 reqSetTime payload)

/-- LINK_WATCH (R170). -/
def execLinkWatch (seq : Byte) (payload : List Byte) (s : State) : Host.Outcome State Fault Refusal :=
  answered (s.goodFrame seq 0x07 reqLinkWatch payload)

end Sys2Proof.Machine
end

