-- ==== Sys2Proof/Machine/ReqNotice.lean ====
section
/-! DEFINITION. The requests of the notice unit: NOTICE_CLASS, FLOOR_SET, PEEK, CLAIM, CLOSE and DISMISS (spec 04). -/

namespace Sys2Proof.Machine

/-- OK with a new notice unit and content fixed. -/
def okNotices (u : NoticeUnit) (content : List Byte) (s : State) : Served :=
  let t : State := { s with notices := u }
  okWith t.body content

/-- NOTICE_CLASS (R89).  In HALTED it is refused with WRONG_MODE, as R89 and the table after R133 say, although R143 says that
every notice request is accepted there and R185 counts NOTICE_CLASS among them (the model's choice, log 25). -/
def reqNoticeClass : Request := fun payload s =>
  match payload with
  | [c, e, p, n] =>
    match indexOf 10 c, flagOf e, indexOf 8 p, flagOf n with
    | some cls, some enabled, some priority, some nest =>
      if s.modes.mode != .setup then refuse .wrongMode s
      else okNotices { s.notices with classes := setVec s.notices.classes cls ⟨enabled, priority, nest⟩ } [] s
    | _, _, _, _ => refuse .badArg s
  | _ => refuse .badLength s

/-- FLOOR_SET (R100). -/
def reqFloorSet : Request := fun payload s =>
  match payload with
  | [b] =>
    match indexOf 8 b with
    | none => refuse .badArg s
    | some floor => okNotices { s.notices with floor := floor } [byteOf floor.val, byteOf s.notices.waiting.length] s
  | _ => refuse .badLength s

/-- PEEK (R103). -/
def reqPeek : Request := noPayload fun s => okWith s.body s.notices.peekBytes

/-- A record with an id removed from a list. -/
def dropId (id : NoticeId) : List Notice → List Notice
  | [] => []
  | r :: rest => if r.id = id then rest else r :: dropId id rest

/-- A list of records holds an id. -/
def hasId (id : NoticeId) (l : List Notice) : Bool := l.any fun r => r.id == id

/-- The record CLAIM takes goes to the top of the stack (R104, case 4). -/
def NoticeUnit.claim (r : Notice) (u : NoticeUnit) : NoticeUnit :=
  { u with waiting := dropId r.id u.waiting, stack := r :: u.stack }

/-- CLAIM (R104). -/
def reqClaim : Request := noPayload fun s =>
  let u := s.notices
  match u.next? with
  | none => refuseWith .empty [byteOf u.waiting.length] s
  | some r =>
    if Config.stackSize ≤ u.stack.length then
      refuseWith .stackFull [byteOf u.waiting.length, byteOf u.stack.length] s
    else
      let w := u.claim r
      okNotices w (byteOf w.waiting.length :: byteOf w.stack.length :: r.bytes w.stack.length) s

/-- The content of an OK reply to CLOSE (R105, R185). -/
def NoticeUnit.closeBytes (u : NoticeUnit) : List Byte := byteOf u.stack.length :: bytes16 u.topId

/-- CLOSE (R105, R106). -/
def reqClose : Request := fun payload s =>
  match payload with
  | [hi, lo] =>
    let id := word16 hi lo
    if id = 0 then
      match s.notices.stack with
      | [] => refuse .empty s
      | _ :: rest =>
        let u : NoticeUnit := { s.notices with stack := rest }
        okNotices u u.closeBytes s
    else if hasId id s.notices.stack then
      let u : NoticeUnit := { s.notices with stack := dropId id s.notices.stack }
      okNotices u u.closeBytes s
    else refuse .notFound s
  | _ => refuse .badLength s

/-- DISMISS (R107); the id 0 belongs to no record (R95). -/
def reqDismiss : Request := fun payload s =>
  match payload with
  | [hi, lo] =>
    let id := word16 hi lo
    if id ≠ 0 ∧ hasId id s.notices.waiting then
      let u : NoticeUnit := { s.notices with waiting := dropId id s.notices.waiting }
      okNotices u [byteOf u.waiting.length] s
    else refuse .notFound s
  | _ => refuse .badLength s

/-! ## The commands -/

/-- NOTICE_CLASS (R89). -/
def execNoticeClass (seq : Byte) (payload : List Byte) (s : State) : Host.Outcome State Fault Refusal :=
  answered (s.goodFrame seq 0x30 reqNoticeClass payload)

/-- FLOOR_SET (R100). -/
def execFloorSet (seq : Byte) (payload : List Byte) (s : State) : Host.Outcome State Fault Refusal :=
  answered (s.goodFrame seq 0x31 reqFloorSet payload)

/-- PEEK (R103). -/
def execPeek (seq : Byte) (payload : List Byte) (s : State) : Host.Outcome State Fault Refusal :=
  answered (s.goodFrame seq 0x32 reqPeek payload)

/-- CLAIM (R104). -/
def execClaim (seq : Byte) (payload : List Byte) (s : State) : Host.Outcome State Fault Refusal :=
  answered (s.goodFrame seq 0x33 reqClaim payload)

/-- CLOSE (R105, R106). -/
def execClose (seq : Byte) (payload : List Byte) (s : State) : Host.Outcome State Fault Refusal :=
  answered (s.goodFrame seq 0x34 reqClose payload)

/-- DISMISS (R107). -/
def execDismiss (seq : Byte) (payload : List Byte) (s : State) : Host.Outcome State Fault Refusal :=
  answered (s.goodFrame seq 0x35 reqDismiss payload)

end Sys2Proof.Machine
end

