-- ==== Sys2Proof/Machine/Resets.lean ====
section
/-! DEFINITION. Resets (spec 07, R144 to R148): power-on, RESET#, the two restarts, and the values of R146's tables. -/

namespace Sys2Proof.Machine

/-! ## A hard reset in progress (R147) -/

/-- The frame in transmission is cut, and the frame in reception is abandoned without a count (R147, R155). -/
def Link.cut (k : Link) : Link :=
  { k with
    rx := .hunt
    replies := if k.replySending then k.replies.tail else k.replies
    replySending := false
    attnSlot := match k.attnSlot with
      | .sending _ => .empty
      | .empty => .empty
      | .waiting => .waiting }

/-- A hard reset begins: the pins are low by R111, ATTN# is released, the link is cut, machine time is 0 and no tick
comes (R113, R127, R147, log 15).  An event whose end is open has no further effect. -/
def State.beginReset (kind : HardReset) (s : State) : State :=
  { s with
    modes := { s.modes with inReset := some kind }
    notices := { s.notices with attn := false }
    time := 0
    link := s.link.cut
    openEnd := none }

/-! ## Reset values -/

/-- The values after a power-on reset, a pin reset or a restart of level 0: every block as its rules give it (R145, R146,
R147).  The pins, the queue of commands and the free choices drawn stay. -/
def State.defaulted (cause : ResetCause) (straps : BitVec 2) (s : State) : State :=
  { motion := .default
    notices := .default
    latches := Vector.replicate 4 false
    inputs := mapVec (fun x => Input.default x.raw) s.inputs
    haltIn := .default Config.haltFilter s.haltIn.pin
    drvflt := mapVec (fun f => FixedLine.default Config.drvfltFilter f.pin) s.drvflt
    time := 0
    modes := { mode := .setup, haltCause := none, resetCause := cause, pendingRestart := none, inReset := none }
    link := .default straps
    straps := straps
    tickOwed := false
    openEnd := none
    freeDraws := s.freeDraws
    pending := s.pending }

/-- An input after a restart of level 1: settings kept, filtered level from the raw level (R120). -/
def Input.resettled (x : Input) : Input := { x with filtered := x.inverted, timer := none }

/-- A lane after a restart of level 1: emptied, its configuration kept (R41). -/
def Lane.emptied (l : Lane) : Lane :=
  { Lane.default with policy := l.policy, cycleStop := l.cycleStop, emptyNotice := l.emptyNotice }

/-- The heart after a restart of level 1 (R2, R7, R41, R67, R80). -/
def Motion.restarted (v : Env) (m : Motion) : Motion :=
  let blank : Motion := { m with
    lanes := mapVec Lane.emptied m.lanes, poolFree := Config.poolSize, queue := [], marks := Vector.replicate 8 false }
  allActs.foldl (fun m a => m.setAct a ((m.act a).configured (v.view a) (m.act a).cfg)) blank

/-- A restart of level 1 takes effect (R146). -/
def State.restart1 (s : State) : State :=
  let t : State := { s with
    latches := Vector.replicate 4 false
    inputs := mapVec Input.resettled s.inputs
    haltIn := .default Config.haltFilter s.haltIn.pin
    drvflt := mapVec (fun f => FixedLine.default Config.drvfltFilter f.pin) s.drvflt
    modes := { mode := .setup, haltCause := none, resetCause := .restart1, pendingRestart := none, inReset := none }
    notices := { NoticeUnit.default with classes := s.notices.classes, floor := s.notices.floor }
    link := { Link.default s.link.speed with watchSetting := s.link.watchSetting }
    tickOwed := false
    openEnd := none }
  { t with motion := s.motion.restarted t.env }

/-- The pending restart takes effect (R145, R146). -/
def State.restartNow (level : RestartLevel) (straps : BitVec 2) (s : State) : State :=
  match level with
  | .level0 => s.defaulted .restart0 straps
  | .level1 => s.restart1

/-- The frame in transmission is the reply to the accepted RESTART: no reply is queued behind it, since every later frame
is discarded (R144, R159, log 6). -/
def State.restartReplySending (s : State) : Bool := s.link.replySending && s.link.replies.length == 1

/-! ## The commands -/

/-- POWER_ON (R147). -/
def execPowerOn (s : State) : Host.Outcome State Fault Refusal := answered (s.beginReset .power)

/-- RESET_ASSERTED (R147): during a power-on reset it is part of that reset. -/
def execResetAsserted (s : State) : Host.Outcome State Fault Refusal :=
  answered (if s.modes.inReset = some .power then s else s.beginReset .pin)

/-- RESET_END (R147, R148): the values after the reset, its cause, and the straps sampled. -/
def execResetEnd (straps : BitVec 2) (s : State) : Host.Outcome State Fault Refusal :=
  match s.modes.inReset with
  | none => answered (s.live id)
  | some .power => answered (s.defaulted .power straps)
  | some .pin => answered (s.defaulted .pin straps)

/-- RESTART0_TAKES_EFFECT (R144, R145, R151): the last byte of the reply to RESTART 0 has been sent. -/
def execRestart0TakesEffect (straps : BitVec 2) (s : State) : Host.Outcome State Fault Refusal :=
  answered (s.live fun s =>
    if s.modes.pendingRestart = some .level0 && s.restartReplySending then s.restartNow .level0 straps else s)

/-- RESTART1_TAKES_EFFECT (R144, R146): the last byte of the reply to RESTART 1 has been sent. -/
def execRestart1TakesEffect (s : State) : Host.Outcome State Fault Refusal :=
  answered (s.live fun s =>
    if s.modes.pendingRestart = some .level1 && s.restartReplySending then s.restartNow .level1 s.straps else s)

end Sys2Proof.Machine
end

