-- ==== Sys2Proof/Machine/Link.lean ====
section
/-! DEFINITION. The receiver, the link watch and the transmitter's events (spec 08: R155 to R159, R167, R171). -/

namespace Sys2Proof.Machine

/-- The request of a KIND (R172). -/
def requestOf (kind : Byte) : Request :=
  match kind.toNat with
  | 0x01 => reqIdent
  | 0x02 => reqStatus
  | 0x03 => reqEnterSetup
  | 0x04 => reqEnterRun
  | 0x05 => reqRestart
  | 0x06 => reqSetTime
  | 0x07 => reqLinkWatch
  | 0x10 => reqActConfig
  | 0x11 => reqActRead
  | 0x12 => reqJog
  | 0x13 => reqActClear
  | 0x18 => reqInputConfig
  | 0x19 => reqIoRead
  | 0x1A => reqLinesSet
  | 0x1B => reqBankClear
  | 0x20 => reqLaneConfig
  | 0x21 => reqStepPost
  | 0x22 => reqStepCancel
  | 0x23 => reqLaneFlush
  | 0x24 => reqLanePause
  | 0x25 => reqLaneResume
  | 0x26 => reqLaneAbort
  | 0x27 => reqLaneRead
  | 0x28 => reqMarkSet
  | 0x30 => reqNoticeClass
  | 0x31 => reqFloorSet
  | 0x32 => reqPeek
  | 0x33 => reqClaim
  | 0x34 => reqClose
  | 0x35 => reqDismiss
  | _ => unknownRequest

/-! ## Receiver (R155 to R158) -/

def State.setRx (s : State) (r : Receiver) : State := { s with link := { s.link with rx := r } }

/-- A discard: HUNT, and the receive error count advanced (R156, R158). -/
def State.discardFrame (s : State) : State :=
  { s with link := { s.link with rx := .hunt, rxErrors := satInc s.link.rxErrors } }

/-- A byte stored and entered in the CRC, the gap timer started afresh (R156, R157). -/
def Receiver.entered (r : Receiver) (b : Byte) : Receiver := { r with crc := crcByte r.crc b, gapTimer := some Config.byteGap }

/-- A complete frame whose CRC does not match: discarded and counted, or not counted while a restart is pending (R156,
R159). -/
def State.badFrame (s : State) : State := if s.modes.pendingRestart.isSome then s.frameDone else s.discardFrame

/-- A byte without a framing error in every state but the last of a frame: the receiver after it, or nothing for a
discard (R156). -/
def Receiver.take (r : Receiver) (b : Byte) : Option Receiver :=
  match r.state with
  | .hunt =>
    if b = Config.lead then some { Receiver.hunt with state := .len, gapTimer := some Config.byteGap } else some r
  | .len => if b.toNat ≤ Config.maxPayload then some { r.entered b with state := .seq, len := b } else none
  | .seq => some { r.entered b with state := .kind, seq := b }
  | .kind => some { r.entered b with state := if r.len = 0 then .crc else .payload, kind := b }
  | .payload =>
    let got := r.payload ++ [b]
    some { r.entered b with state := if r.len.toNat ≤ got.length then .crc else .payload, payload := got }
  | .crc => some { r with crcHigh := some b, gapTimer := some Config.byteGap }

/-- A byte without a framing error (R156). -/
def State.takeByte (b : Byte) (s : State) : State :=
  let r := s.link.rx
  match r.state, r.crcHigh with
  | .crc, some hi =>
    if word16 hi b = r.crc then s.goodFrame r.seq r.kind (requestOf r.kind) r.payload else s.badFrame.body.close
  | _, _ =>
    match r.take b with
    | none => s.discardFrame.body.close
    | some r' => (s.setRx r').body.close

/-- A byte with a framing error: dropped in HUNT, a discard elsewhere (R156). -/
def State.takeBroken (s : State) : State :=
  if s.link.rx.state == .hunt then s.body.close else s.discardFrame.body.close

/-- The byte completes a good frame whose request falls together with a delay expiry whose end is open (R44, log 24). -/
def State.byteTakesHeadOut (s : State) (b : Byte) : Bool :=
  match s.link.rx.state, s.link.rx.crcHigh with
  | .crc, some hi => word16 hi b == s.link.rx.crc && s.takesHeadOut s.link.rx.kind s.link.rx.payload
  | _, _ => false

/-- RX_BYTE (R152, R156). -/
def execRxByte (b : Byte) (framingError : Bool) (s : State) : Host.Outcome State Fault Refusal :=
  answered (s.liveAs (!framingError && s.byteTakesHeadOut b) fun s => if framingError then s.takeBroken else s.takeByte b)

/-- Expiry of the gap timer: the partial frame is discarded (R157). -/
def State.gapExpired (s : State) : State := if Timer.due s.link.rx.gapTimer then s.discardFrame.body.close else s

/-- INTER_BYTE_GAP_EXPIRY (R157). -/
def execInterByteGapExpiry (s : State) : Host.Outcome State Fault Refusal := answered (s.live State.gapExpired)

/-- UNKNOWN_KIND (R162): a good frame of the kind given, answered by the link where the kind names no request. -/
def execUnknownKind (seq kind : Byte) (payload : List Byte) (s : State) : Host.Outcome State Fault Refusal :=
  answered (s.goodFrame seq kind (requestOf kind) payload)

/-! ## Link watch (R171) -/

/-- Expiry of the link watch: it stops and orders a link loss (R141, R171). -/
def State.watchExpired (s : State) : State :=
  if Timer.due s.link.watchTimer then
    let t : State := { s with link := { s.link with watchTimer := none } }
    (t.haltPart .linkLost .link).close
  else s

/-- LINK_WATCH_EXPIRY (R171). -/
def execLinkWatchExpiry (s : State) : Host.Outcome State Fault Refusal := answered (s.live State.watchExpired)

/-! ## Transmitter (R165, R167) -/

/-- A frame waits for an idle transmitter (R167). -/
def Link.mayBegin (k : Link) : Bool := k.idle && (k.attnSlot == .waiting || !k.replies.isEmpty)

/-- TX_FRAME_BEGIN (R167, log 5). -/
def execTxFrameBegin (s : State) : Host.Outcome State Fault Refusal :=
  answered (s.live fun s => if s.link.mayBegin then s.body.close else s)

/-- The oldest reply has been sent, and its slot is free (R165). -/
def State.replySent (s : State) : State :=
  { s with link := { s.link with replies := s.link.replies.tail, replySending := false } }

/-- The attention frame has been sent, and its slot is free (R165). -/
def State.attentionSent (s : State) : State := { s with link := { s.link with attnSlot := .empty } }

/-- The last byte of the frame in transmission has been sent (R144, R165, R167). -/
def State.frameSent (s : State) : State :=
  if s.link.replySending then
    match s.modes.pendingRestart with
    | some level => if s.restartReplySending then s.restartNow level s.straps else s.replySent.body.close
    | none => s.replySent.body.close
  else if s.link.idle then s
  else s.attentionSent.body.close

/-- TX_FRAME_END (R165, R167). -/
def execTxFrameEnd (s : State) : Host.Outcome State Fault Refusal := answered (s.live State.frameSent)

end Sys2Proof.Machine
end

