-- ==== Sys2Proof/Machine/Tick.lean ====
section
/-! DEFINITION. The tick of the timebase (R126 to R131): outstanding events of the tick before, machine time, timers, the tick's
own event, in which AT_TIME heads join the start queue, and the starts made on their own. -/

namespace Sys2Proof.Machine

/-! ## Timers (R128) -/

def Actuator.tick (a : Actuator) : Actuator :=
  { a with
    gapTimer := Timer.tick a.gapTimer
    travelTimer := Timer.tick a.travelTimer
    settleTimer := Timer.tick a.settleTimer
    pulse := a.pulse.map fun p => { p with left := p.left - 1 } }

def Lane.tick (l : Lane) : Lane := { l with delayTimer := Timer.tick l.delayTimer }

def QEntry.tick (q : QEntry) : QEntry := { q with limit := Timer.tick q.limit }

def Motion.tick (m : Motion) : Motion :=
  { m with acts := mapVec Actuator.tick m.acts, lanes := mapVec Lane.tick m.lanes, queue := m.queue.map QEntry.tick }

def Input.tick (i : Input) : Input := { i with timer := Timer.tick i.timer }

def FixedLine.tick (f : FixedLine) : FixedLine := { f with timer := Timer.tick f.timer }

def Link.tick (k : Link) : Link :=
  { k with rx := { k.rx with gapTimer := Timer.tick k.rx.gapTimer }, watchTimer := Timer.tick k.watchTimer }

/-- The count advances by one, every running timer counts the tick, and every held step is tested for its time (R126,
R128, R131), before every event taken at the tick (log 23). -/
def State.count (s : State) : State :=
  { s with
    time := s.time + 1
    motion := s.motion.tick.testReached (s.time + 1)
    inputs := mapVec Input.tick s.inputs
    haltIn := s.haltIn.tick
    drvflt := mapVec FixedLine.tick s.drvflt
    link := s.link.tick }

/-! ## The tick's own event (R44, R77, R131) -/

/-- A head that waits for a time. -/
def Step.awaitsTime (h : Step) : Bool :=
  match h.cond with
  | .atTime _ => true
  | .next => false
  | .delay _ => false
  | .onInput _ _ => false
  | .onMark _ => false

/-- A WAITING lane whose AT_TIME head has its indicator set: its wait is over (R44, R131). -/
def Lane.timeUp (l : Lane) : Bool :=
  match l.head? with
  | none => false
  | some h => l.state == .waiting && h.awaitsTime && h.reached

/-- In RUN a WAITING AT_TIME head whose indicator is set joins the start queue (R44, R131). -/
def Event.joinReached (v : Env) (l : LaneIx) (e : Event) : Event :=
  if v.mode == .run && (e.m.lane l).timeUp then e.joinQueue l else e

/-- The tick's own event: the AT_TIME heads whose time the tick reached join, lane 0 first (R44, R68, R131, log 4), and the
arbiter starts what may start at its end (R75, R77). -/
def State.ownTick (s : State) : State :=
  let t := { s with tickOwed := false }
  Body.close { s := t, e := allLanes.foldl (fun e l => e.joinReached t.env l) t.event }

/-! ## Outstanding events of the tick before (logs 2 and 22) -/

/-- The expiries of one actuator that are due. -/
def State.actExpiries (s : State) (a : ActIx) : State :=
  (((s.gapExpiry a).travelExpiry a).settleExpiry a).pulseExpiry a

/-- The expiries of one lane that are due; the event of the first ends before the second (log 24). -/
def State.laneExpiries (s : State) (l : LaneIx) : State := (s.delayExpiry l).shut.limitExpiry l

/-- Every event of the tick before that has not been taken is taken, its own and then its expiries, each an event of its
own, in a fixed order. -/
def State.takeDue (s : State) : State :=
  let s := if s.tickOwed then s.ownTick else s
  let s := allActs.foldl State.actExpiries s
  let s := allLanes.foldl State.laneExpiries s
  let s := allInputs.foldl (fun s i => s.stabilityExpiry i) s
  let s := s.haltExpiry
  let s := allBanks.foldl (fun s k => s.drvfltExpiry k) s
  s.gapExpired.watchExpired

/-- A timer of an actuator is due. -/
def Actuator.anyDue (a : Actuator) : Bool :=
  Timer.due a.gapTimer || Timer.due a.travelTimer || Timer.due a.settleTimer || a.pulseDue

/-- Some timer is due: an expiry falls on the tick that has been counted (R129). -/
def State.anyDue (s : State) : Bool :=
  allActs.any (fun a => (s.motion.act a).anyDue) || allLanes.any (fun l => Timer.due (s.motion.lane l).delayTimer) ||
    s.motion.queue.any (fun q => Timer.due q.limit) || allInputs.any (fun i => Timer.due (s.inputs.get i).timer) ||
    Timer.due s.haltIn.timer || allBanks.any (fun k => Timer.due (s.drvflt.get k).timer) ||
    Timer.due s.link.rx.gapTimer || Timer.due s.link.watchTimer

/-! ## The commands -/

/-- A tick after which nothing is outstanding: the count, and then the tick's own event. Where the device is in RUN and
expiries fall on the same tick, either may be taken first (R68, R70, R129): the tick's own event is then left outstanding as
they are, and AT_TIME_REACHED or STEP_START takes it when the sender chooses (log 22). -/
def State.tickEvent (s : State) : State :=
  let t := s.count
  if t.modes.mode == .run && t.anyDue then { t with tickOwed := true } else t.ownTick

/-- TICK (R126 to R128, R131). -/
def execTick (s : State) : Host.Outcome State Fault Refusal := answered (s.live fun s => s.takeDue.tickEvent)

/-- The indicator of the step at a place of a lane tested (R131). -/
def Lane.testPlace (now : Time) (place : Nat) (l : Lane) : Lane :=
  { l with steps := l.steps.modify place (Step.testReached now) }

/-- AT_TIME_REACHED (R131, logs 4 and 22): the step's indicator is tested, and a head that waits for its time joins. For a head
whose indicator the tick has set already, the tick's own event is taken if it is outstanding. -/
def execAtTimeReached (l : LaneIx) (place : Nat) (s : State) : Host.Outcome State Fault Refusal :=
  answered (s.live fun s =>
    let t : State := { s with motion := s.motion.setLane l ((s.motion.lane l).testPlace s.time place) }
    if t.motion = s.motion then
      if s.tickOwed && s.modes.mode == .run && place == 0 && (s.motion.lane l).timeUp then s.ownTick else s
    else Body.close { s := t, e := t.event.joinReached t.env l })

/-- The event that a start belongs to where a queued entry may start: the tick's own event if that is outstanding (log 22),
else an event of its own. -/
def State.startEvent (s : State) : State :=
  if s.modes.mode == .run && (s.event.findReady s.env [] s.motion.queue).isSome then
    if s.tickOwed then s.ownTick else s.body.close
  else s

/-- STEP_START (R75, R78): the end of a delay expiry's event, where it is open (log 24); else the arbiter judges its queue in
an event that a start may belong to, and with no entry ready nothing happens. -/
def execStepStart (s : State) : Host.Outcome State Fault Refusal :=
  answered (s.live fun t => if s.openEnd.isSome then t else t.startEvent)

end Sys2Proof.Machine
end

