-- ==== Sys2Proof/Machine/Dispatch.lean ====
section
/-! DEFINITION. The meaning of every command, one arm each. -/

namespace Sys2Proof.Machine

/-- The effect of a command on everything but the queue of commands. -/
def exec (i : Instr) (s : State) : Host.Outcome State Fault Refusal :=
  match i with
  | .powerOn => Sys2Proof.Machine.execPowerOn s
  | .resetAsserted => Sys2Proof.Machine.execResetAsserted s
  | .resetEnd straps => Sys2Proof.Machine.execResetEnd straps s
  | .tick => Sys2Proof.Machine.execTick s
  | .atTimeReached l place => Sys2Proof.Machine.execAtTimeReached l place s
  | .stepStart => Sys2Proof.Machine.execStepStart s
  | .gapTimerExpiry a => Sys2Proof.Machine.execGapTimerExpiry a s
  | .travelTimerExpiry a => Sys2Proof.Machine.execTravelTimerExpiry a s
  | .settleTimerExpiry a => Sys2Proof.Machine.execSettleTimerExpiry a s
  | .pulseTimerExpiry a => Sys2Proof.Machine.execPulseTimerExpiry a s
  | .delayTimerExpiry l => Sys2Proof.Machine.execDelayTimerExpiry l s
  | .startLimitExpiry l => Sys2Proof.Machine.execStartLimitExpiry l s
  | .inputRawChange input level => Sys2Proof.Machine.execInputRawChange input level s
  | .stabilityTimerExpiry input => Sys2Proof.Machine.execStabilityTimerExpiry input s
  | .haltPinChange level => Sys2Proof.Machine.execHaltPinChange level s
  | .haltFilterExpiry => Sys2Proof.Machine.execHaltFilterExpiry s
  | .drvfltPinChange k level => Sys2Proof.Machine.execDrvfltPinChange k level s
  | .drvfltFilterExpiry k => Sys2Proof.Machine.execDrvfltFilterExpiry k s
  | .rxByte b framingError => Sys2Proof.Machine.execRxByte b framingError s
  | .interByteGapExpiry => Sys2Proof.Machine.execInterByteGapExpiry s
  | .unknownKind seq kind payload => Sys2Proof.Machine.execUnknownKind seq kind payload s
  | .linkWatchExpiry => Sys2Proof.Machine.execLinkWatchExpiry s
  | .txFrameBegin => Sys2Proof.Machine.execTxFrameBegin s
  | .txFrameEnd => Sys2Proof.Machine.execTxFrameEnd s
  | .restart0TakesEffect straps => Sys2Proof.Machine.execRestart0TakesEffect straps s
  | .restart1TakesEffect => Sys2Proof.Machine.execRestart1TakesEffect s
  | .ident seq payload => Sys2Proof.Machine.execIdent seq payload s
  | .status seq payload => Sys2Proof.Machine.execStatus seq payload s
  | .enterSetup seq payload => Sys2Proof.Machine.execEnterSetup seq payload s
  | .enterRun seq payload => Sys2Proof.Machine.execEnterRun seq payload s
  | .restart seq payload => Sys2Proof.Machine.execRestart seq payload s
  | .setTime seq payload => Sys2Proof.Machine.execSetTime seq payload s
  | .linkWatch seq payload => Sys2Proof.Machine.execLinkWatch seq payload s
  | .actConfig seq payload => Sys2Proof.Machine.execActConfig seq payload s
  | .actRead seq payload => Sys2Proof.Machine.execActRead seq payload s
  | .jog seq payload => Sys2Proof.Machine.execJog seq payload s
  | .actClear seq payload => Sys2Proof.Machine.execActClear seq payload s
  | .inputConfig seq payload => Sys2Proof.Machine.execInputConfig seq payload s
  | .ioRead seq payload => Sys2Proof.Machine.execIoRead seq payload s
  | .linesSet seq payload => Sys2Proof.Machine.execLinesSet seq payload s
  | .bankClear seq payload => Sys2Proof.Machine.execBankClear seq payload s
  | .laneConfig seq payload => Sys2Proof.Machine.execLaneConfig seq payload s
  | .stepPost seq payload => Sys2Proof.Machine.execStepPost seq payload s
  | .stepCancel seq payload => Sys2Proof.Machine.execStepCancel seq payload s
  | .laneFlush seq payload => Sys2Proof.Machine.execLaneFlush seq payload s
  | .lanePause seq payload => Sys2Proof.Machine.execLanePause seq payload s
  | .laneResume seq payload => Sys2Proof.Machine.execLaneResume seq payload s
  | .laneAbort seq payload => Sys2Proof.Machine.execLaneAbort seq payload s
  | .laneRead seq payload => Sys2Proof.Machine.execLaneRead seq payload s
  | .markSet seq payload => Sys2Proof.Machine.execMarkSet seq payload s
  | .noticeClass seq payload => Sys2Proof.Machine.execNoticeClass seq payload s
  | .floorSet seq payload => Sys2Proof.Machine.execFloorSet seq payload s
  | .peek seq payload => Sys2Proof.Machine.execPeek seq payload s
  | .claim seq payload => Sys2Proof.Machine.execClaim seq payload s
  | .close seq payload => Sys2Proof.Machine.execClose seq payload s
  | .dismiss seq payload => Sys2Proof.Machine.execDismiss seq payload s

end Sys2Proof.Machine
end

