-- ==== Sys2Proof/WellFormed.lean ====
section
/-! DEFINITION. What a command must meet to name an event of the spec. -/

namespace Sys2Proof

/-- The request kinds of R172. -/
def requestKinds : List Byte :=
  [0x01, 0x02, 0x03, 0x04, 0x05, 0x06, 0x07,
   0x10, 0x11, 0x12, 0x13, 0x18, 0x19, 0x1A, 0x1B,
   0x20, 0x21, 0x22, 0x23, 0x24, 0x25, 0x26, 0x27, 0x28,
   0x30, 0x31, 0x32, 0x33, 0x34, 0x35]

/-- A payload a frame can carry: at most 120 bytes (R153). -/
def payloadFits (payload : List Byte) : Bool := payload.length ≤ Config.maxPayload

/-- The checks on a command's operands: a frame's payload fits, UNKNOWN_KIND names no request kind, and a place in a
lane is one of 32 (R37).  Every other operand is in range by its type. -/
def Instr.wellFormed : Instr → Bool
  | .powerOn => true
  | .resetAsserted => true
  | .resetEnd _ => true
  | .tick => true
  | .atTimeReached _ place => place < Config.laneDepth
  | .stepStart => true
  | .gapTimerExpiry _ => true
  | .travelTimerExpiry _ => true
  | .settleTimerExpiry _ => true
  | .pulseTimerExpiry _ => true
  | .delayTimerExpiry _ => true
  | .startLimitExpiry _ => true
  | .inputRawChange _ _ => true
  | .stabilityTimerExpiry _ => true
  | .haltPinChange _ => true
  | .haltFilterExpiry => true
  | .drvfltPinChange _ _ => true
  | .drvfltFilterExpiry _ => true
  | .rxByte _ _ => true
  | .interByteGapExpiry => true
  | .unknownKind _ kind payload => payloadFits payload && !requestKinds.contains kind
  | .linkWatchExpiry => true
  | .txFrameBegin => true
  | .txFrameEnd => true
  | .restart0TakesEffect _ => true
  | .restart1TakesEffect => true
  | .ident _ payload => payloadFits payload
  | .status _ payload => payloadFits payload
  | .enterSetup _ payload => payloadFits payload
  | .enterRun _ payload => payloadFits payload
  | .restart _ payload => payloadFits payload
  | .setTime _ payload => payloadFits payload
  | .linkWatch _ payload => payloadFits payload
  | .actConfig _ payload => payloadFits payload
  | .actRead _ payload => payloadFits payload
  | .jog _ payload => payloadFits payload
  | .actClear _ payload => payloadFits payload
  | .inputConfig _ payload => payloadFits payload
  | .ioRead _ payload => payloadFits payload
  | .linesSet _ payload => payloadFits payload
  | .bankClear _ payload => payloadFits payload
  | .laneConfig _ payload => payloadFits payload
  | .stepPost _ payload => payloadFits payload
  | .stepCancel _ payload => payloadFits payload
  | .laneFlush _ payload => payloadFits payload
  | .lanePause _ payload => payloadFits payload
  | .laneResume _ payload => payloadFits payload
  | .laneAbort _ payload => payloadFits payload
  | .laneRead _ payload => payloadFits payload
  | .markSet _ payload => payloadFits payload
  | .noticeClass _ payload => payloadFits payload
  | .floorSet _ payload => payloadFits payload
  | .peek _ payload => payloadFits payload
  | .claim _ payload => payloadFits payload
  | .close _ payload => payloadFits payload
  | .dismiss _ payload => payloadFits payload

end Sys2Proof
end

