-- ==== Sys2Proof/Safety.lean ====
section
/-! DEFINITION. The words in which statements about the part are made: when it takes a request, what a reply leaves at the
link, how an event ends, and the laws of the part that the spec names. -/

namespace Sys2Proof.Safety

open Sys2Proof.Machine

/-! ## Conditions on a state -/

/-- No power-on or pin reset is in progress (R147), and no event's end is open (log 24). -/
abbrev Operating (s : State) : Prop := s.modes.inReset = none ∧ s.openEnd = none

/-- A good frame with this SEQ would be taken as a new request (R159, R160, R161, R166). -/
def Takes (s : State) (seq : Byte) : Prop :=
  Operating s ∧ s.modes.pendingRestart = none ∧ s.link.replies.length < 4 ∧
    ∀ r, s.link.seqRecord = some r → r.seq ≠ seq

/-- A timer whose expiry has come and has not been taken (log 2). -/
def Due (t : Timer) : Prop := t = some 0

/-- No expiry is outstanding. -/
def NothingDue (s : State) : Prop :=
  (∀ a, ¬ Due (s.motion.act a).gapTimer ∧ ¬ Due (s.motion.act a).travelTimer ∧ ¬ Due (s.motion.act a).settleTimer ∧
      ∀ p, (s.motion.act a).pulse = some p → p.left ≠ 0) ∧
    (∀ l, ¬ Due (s.motion.lane l).delayTimer) ∧
    (∀ q ∈ s.motion.queue, ¬ Due q.limit) ∧
    (∀ i, ¬ Due (s.inputs.get i).timer) ∧
    ¬ Due s.haltIn.timer ∧
    (∀ k, ¬ Due (s.drvflt.get k).timer) ∧
    ¬ Due s.link.rx.gapTimer ∧
    ¬ Due s.link.watchTimer

/-- The commands that take the expiries of one tick, in the order in which TICK takes those left outstanding (log 2). -/
def expiryCommands : List Instr :=
  (allActs.flatMap fun a => [.gapTimerExpiry a, .travelTimerExpiry a, .settleTimerExpiry a, .pulseTimerExpiry a]) ++
    (allLanes.flatMap fun l => [.delayTimerExpiry l, .startLimitExpiry l]) ++
    (allInputs.map fun i => .stabilityTimerExpiry i) ++ [.haltFilterExpiry] ++
    (allBanks.map fun k => .drvfltFilterExpiry k) ++ [.interByteGapExpiry, .linkWatchExpiry]

/-- The next state a command answers (every command answers one, NOTES.md, Stops). -/
def nextOf (s : State) (c : Instr) : State :=
  match exec c s with
  | .next t => t
  | .fault _ => s
  | .refused _ => s

/-! ## The end of an event -/

/-- The heart of the part, and the notices, after the arbiter's turn at the end of an event that left the part at `u` with
the notices `raised` (R75, R77). -/
def endOf (u : State) (raised : List Raised) : Event :=
  Event.arbitrate u.env { m := u.motion, raised := raised, started := [] }

/-- The link of `t` is that of `u`, but for what the transmitter and the attention request change. -/
structure SameLink (u t : State) : Prop where
  rx : t.link.rx = u.link.rx
  seqRecord : t.link.seqRecord = u.link.seqRecord
  replies : t.link.replies = u.link.replies
  watchSetting : t.link.watchSetting = u.link.watchSetting
  watchTimer : t.link.watchTimer = u.link.watchTimer
  rxErrors : t.link.rxErrors = u.link.rxErrors
  overruns : t.link.overruns = u.link.overruns
  speed : t.link.speed = u.link.speed

/-- `t` is what the end of an event makes of `u`: the arbiter has had its turn (R75), the notices have been taken in their
order (R92, R96) and attention judged (R101); every other block of `t` is that of `u`. -/
structure After (u : State) (raised : List Raised) (t : State) : Prop where
  motion : t.motion = (endOf u raised).m
  notices : t.notices = { u.notices.takeAll u.time (endOf u raised).raised with
    attn := (u.notices.takeAll u.time (endOf u raised).raised).attention }
  latches : t.latches = u.latches
  inputs : t.inputs = u.inputs
  haltIn : t.haltIn = u.haltIn
  drvflt : t.drvflt = u.drvflt
  time : t.time = u.time
  modes : t.modes = u.modes
  straps : t.straps = u.straps
  tickOwed : t.tickOwed = u.tickOwed
  openEnd : t.openEnd = u.openEnd
  pending : t.pending = u.pending
  link : SameLink u t

/-- A command's outcome is the end of an event that left the part at `u` with the notices `raised`. -/
def Yields (c : Instr) (s u : State) (raised : List Raised) : Prop := ∃ t, exec c s = .next t ∧ After u raised t

/-- A command's outcome is that of a refused request: `u`, in which the link alone has answered, and then the transmitter's
turn, which touches the link alone. No other block changes (R175). -/
def Refuses (c : Instr) (s u : State) : Prop := ∃ t, exec c s = .next t ∧ t = { u with link := t.link } ∧ SameLink u t

/-- The link watch restarted by a good frame (R171). -/
def watchRestarted (s : State) : Timer := if s.link.watchSetting = 0 then s.link.watchTimer else some s.link.watchSetting

/-- A good frame has been received: the receiver is in HUNT and the link watch restarted (R156, R160, R171). -/
def received (s : State) : State := { s with link := { s.link with rx := .hunt, watchTimer := watchRestarted s } }

/-- The reply frame to a request (R164). -/
def replyTo (seq kind : Byte) (st : Status) (content : List Byte) : List Byte :=
  frameOf seq (replyKind kind) (st.code :: content)

/-- A request has been answered: its frame has been received, its reply is queued and stored, and its SEQ is the last
accepted sequence number (R162). -/
def answering (s : State) (seq kind : Byte) (st : Status) (content : List Byte) : State :=
  { s with link := { s.link with
      rx := .hunt
      watchTimer := watchRestarted s
      replies := s.link.replies ++ [replyTo seq kind st content]
      seqRecord := some { seq := seq, reply := replyTo seq kind st content } } }

/-- The SEQ, the KIND and the payload of a command that is a good frame (R153, R172). -/
def spoken : Instr → Option (Byte × Byte × List Byte)
  | .unknownKind seq kind p => some (seq, kind, p)
  | .ident seq p => some (seq, 0x01, p)
  | .status seq p => some (seq, 0x02, p)
  | .enterSetup seq p => some (seq, 0x03, p)
  | .enterRun seq p => some (seq, 0x04, p)
  | .restart seq p => some (seq, 0x05, p)
  | .setTime seq p => some (seq, 0x06, p)
  | .linkWatch seq p => some (seq, 0x07, p)
  | .actConfig seq p => some (seq, 0x10, p)
  | .actRead seq p => some (seq, 0x11, p)
  | .jog seq p => some (seq, 0x12, p)
  | .actClear seq p => some (seq, 0x13, p)
  | .inputConfig seq p => some (seq, 0x18, p)
  | .ioRead seq p => some (seq, 0x19, p)
  | .linesSet seq p => some (seq, 0x1A, p)
  | .bankClear seq p => some (seq, 0x1B, p)
  | .laneConfig seq p => some (seq, 0x20, p)
  | .stepPost seq p => some (seq, 0x21, p)
  | .stepCancel seq p => some (seq, 0x22, p)
  | .laneFlush seq p => some (seq, 0x23, p)
  | .lanePause seq p => some (seq, 0x24, p)
  | .laneResume seq p => some (seq, 0x25, p)
  | .laneAbort seq p => some (seq, 0x26, p)
  | .laneRead seq p => some (seq, 0x27, p)
  | .markSet seq p => some (seq, 0x28, p)
  | .noticeClass seq p => some (seq, 0x30, p)
  | .floorSet seq p => some (seq, 0x31, p)
  | .peek seq p => some (seq, 0x32, p)
  | .claim seq p => some (seq, 0x33, p)
  | .close seq p => some (seq, 0x34, p)
  | .dismiss seq p => some (seq, 0x35, p)
  | _ => none

/-- The length rule of R172 and R174. -/
def lengthFits (kind : Byte) (p : List Byte) : Bool :=
  match kind.toNat with
  | 0x05 => p.length == 1
  | 0x06 => p.length == 4
  | 0x07 => p.length == 2
  | 0x10 => decide (15 ≤ p.length) && p.length == 15 + 2 * (p.getD 14 0).toNat
  | 0x11 => p.length == 1
  | 0x12 => p.length == 3
  | 0x13 => p.length == 1
  | 0x18 => p.length == 4
  | 0x1A => p.length == 8
  | 0x1B => p.length == 1
  | 0x20 => p.length == 5
  | 0x21 => decide (13 ≤ p.length) && p.length == 13 + 2 * (p.getD 12 0).toNat
  | 0x22 => p.length == 3
  | 0x23 => p.length == 1
  | 0x24 => p.length == 1
  | 0x25 => p.length == 2
  | 0x26 => p.length == 1
  | 0x27 => p.length == 1
  | 0x28 => p.length == 2
  | 0x30 => p.length == 4
  | 0x31 => p.length == 1
  | 0x34 => p.length == 2
  | 0x35 => p.length == 2
  | _ => p.length == 0

/-! ## An open end (log 24) -/

/-- The command is a LANE_PAUSE or a LANE_FLUSH of the lane, or a STEP_CANCEL of its head's tag: whole, or the byte that
completes its frame. -/
def TakesHeadOut (s : State) (l : LaneIx) (c : Instr) : Prop :=
  ∃ seq kind p,
    (spoken c = some (seq, kind, p) ∨
      ∃ b hi, c = .rxByte b false ∧ s.link.rx.state = .crc ∧ s.link.rx.crcHigh = some hi ∧ hi ++ b = s.link.rx.crc ∧
        kind = s.link.rx.kind ∧ p = s.link.rx.payload) ∧
    ((kind = 0x23 ∨ kind = 0x24) ∧ p = [byteOf l.val] ∨
      kind = 0x22 ∧ ∃ h rest, (s.motion.lane l).steps = h :: rest ∧ p = byteOf l.val :: bytes16 h.tag)

/-! ## Resets -/

/-- Commands that act while a hard reset is in progress: the resets' own, and the pins (R147, log 15). -/
def actsInReset : Instr → Bool
  | .powerOn => true
  | .resetAsserted => true
  | .resetEnd _ => true
  | .inputRawChange _ _ => true
  | .haltPinChange _ => true
  | .drvfltPinChange _ _ => true
  | _ => false

/-- The pins as a reset in progress leaves them, and the blocks it does not touch (R111, R147). -/
structure HeldInReset (s t : State) : Prop where
  actual : ∀ k b, t.actualLevel k b = false
  notices : t.notices = { s.notices with attn := false }
  time : t.time = 0
  rx : t.link.rx = .hunt
  idle : t.link.idle = true
  rxErrors : t.link.rxErrors = s.link.rxErrors
  motion : t.motion = s.motion
  latches : t.latches = s.latches
  inputs : t.inputs = s.inputs
  haltIn : t.haltIn = s.haltIn
  drvflt : t.drvflt = s.drvflt
  openEnd : t.openEnd = none
  pending : t.pending = s.pending

/-- What every reset leaves, of any of the four kinds (R7, R41, R67, R80, R110, R113, R115, R120, R124, R133, R155, R161,
R165, R166, R169). -/
structure AfterReset (s t : State) : Prop where
  lines : ∀ a, (t.motion.act a).lineA = false ∧ (t.motion.act a).lineB = false
  owners : ∀ a, (t.motion.act a).owner = .none ∧ (t.motion.act a).fault = none ∧ (t.motion.act a).target = none
  entry : ∀ a, (t.motion.act a).entryTime = t.time
  actTimers : ∀ a, (t.motion.act a).gapTimer = none ∧ (t.motion.act a).travelTimer = none ∧
    (t.motion.act a).settleTimer = none ∧ (t.motion.act a).pulse = none
  lanes : ∀ l, (t.motion.lane l).state = .empty ∧ (t.motion.lane l).steps = [] ∧ (t.motion.lane l).pausePending = false ∧
    (t.motion.lane l).fault = none ∧ (t.motion.lane l).failedAct = none ∧ (t.motion.lane l).cycleCount = 0 ∧
    (t.motion.lane l).delayTimer = none
  pool : t.motion.poolFree = 64
  queue : t.motion.queue = []
  marks : ∀ k, t.motion.mark k = false
  waiting : t.notices.waiting = []
  stack : t.notices.stack = []
  nextId : t.notices.nextId = 1
  lost : t.notices.lost = 0
  attn : t.notices.attn = false
  latches : ∀ k, t.latches.get k = false
  inputs : ∀ i, (t.inputs.get i).raw = (s.inputs.get i).raw ∧ (t.inputs.get i).timer = none ∧
    (t.inputs.get i).filtered = ((t.inputs.get i).raw != (t.inputs.get i).invert)
  haltIn : t.haltIn = { pin := s.haltIn.pin, active := false, timer := if s.haltIn.pin then none else some 2 }
  drvflt : ∀ k, t.drvflt.get k =
    { pin := (s.drvflt.get k).pin, active := false, timer := if (s.drvflt.get k).pin then none else some 1 }
  mode : t.modes.mode = .setup
  haltCause : t.modes.haltCause = none
  noRestart : t.modes.pendingRestart = none
  ended : t.modes.inReset = none
  rx : t.link.rx = .hunt
  seqRecord : t.link.seqRecord = none
  replies : t.link.replies = []
  idle : t.link.replySending = false ∧ t.link.attnSlot = .empty
  counts : t.link.rxErrors = 0 ∧ t.link.overruns = 0 ∧ t.link.attnCounter = 0
  watch : t.link.watchTimer = none
  tickOwed : t.tickOwed = false
  openEnd : t.openEnd = none
  pending : t.pending = s.pending

/-- What power-on, a pin reset and a restart of level 0 leave besides (R2, R7, R41, R88, R100, R120, R127, R151, R170). -/
structure Defaulted (straps : BitVec 2) (t : State) : Prop where
  cfg : ∀ a, (t.motion.act a).cfg =
    { kind := .none, sensing := .both, travelLimit := 20, settleTime := 0, crossoverGap := 0, pulseLength := 20,
      faultAction := .release, stopAction := .release, safeAction := .release, guards := [] }
  off : ∀ a, (t.motion.act a).state = .off ∧ (t.motion.act a).position = .u ∧ (t.motion.act a).supervised = false
  lanes : ∀ l, (t.motion.lane l).policy = .finishOthers ∧ (t.motion.lane l).cycleStop = 0 ∧
    (t.motion.lane l).emptyNotice = false
  classes : t.notices.classes = classDefaults
  floor : t.notices.floor = 7
  inputs : ∀ i, (t.inputs.get i).filterTime = 10 ∧ (t.inputs.get i).invert = false ∧ (t.inputs.get i).watch = .none
  time : t.time = 0
  watchSetting : t.link.watchSetting = 0
  speed : t.link.speed = straps

/-- What a restart of level 1 keeps (R146). -/
structure KeptByRestart (s t : State) : Prop where
  cfg : ∀ a, (t.motion.act a).cfg = (s.motion.act a).cfg
  lanes : ∀ l, (t.motion.lane l).policy = (s.motion.lane l).policy ∧
    (t.motion.lane l).cycleStop = (s.motion.lane l).cycleStop ∧ (t.motion.lane l).emptyNotice = (s.motion.lane l).emptyNotice
  classes : t.notices.classes = s.notices.classes
  floor : t.notices.floor = s.notices.floor
  inputs : ∀ i, (t.inputs.get i).filterTime = (s.inputs.get i).filterTime ∧
    (t.inputs.get i).invert = (s.inputs.get i).invert ∧ (t.inputs.get i).watch = (s.inputs.get i).watch
  time : t.time = s.time
  watchSetting : t.link.watchSetting = s.link.watchSetting
  speed : t.link.speed = s.link.speed

/-! ## Time -/

/-- A step with its reached indicator tested against a count: once set it stays set (R131). -/
def reachedAt (now : Time) (h : Step) : Step :=
  match h.cond with
  | .atTime t => { h with reached := h.reached || decide ((now - t).toNat < 2 ^ 31) }
  | _ => h

/-- A timer with one more tick counted (R128). -/
def counted (t : Timer) : Timer := t.map (· - 1)

/-- An actuator with one more tick counted. -/
def actCounted (a : Actuator) : Actuator :=
  { a with
    gapTimer := counted a.gapTimer
    travelTimer := counted a.travelTimer
    settleTimer := counted a.settleTimer
    pulse := a.pulse.map fun p => { p with left := p.left - 1 } }

/-- A lane with one more tick counted, its steps tested against the new count (R128, R131). -/
def laneCounted (now : Time) (l : Lane) : Lane :=
  { l with delayTimer := counted l.delayTimer, steps := l.steps.map (reachedAt now) }

/-- The head of a WAITING lane waits for a time whose indicator is set (R44, R131). -/
def waitOver (l : Lane) : Bool :=
  l.state == .waiting &&
    match l.steps.head? with
    | none => false
    | some h =>
      match h.cond with
      | .atTime _ => h.reached
      | _ => false

/-- A lane whose head has joined the start queue (R68). -/
def queuedLane (l : Lane) : Lane :=
  match l.steps with
  | [] => l
  | h :: rest => { l with state := .queued, delayTimer := none, steps := { h with run := .queued } :: rest }

/-- A tick has been counted: machine time has advanced by one, every running timer counts it and every held step is tested
against the new count (R126, R128, R131); nothing else has changed. -/
structure TickCounted (s u : State) : Prop where
  frame : u = { s with
    time := s.time + 1
    motion := u.motion
    inputs := u.inputs
    haltIn := { s.haltIn with timer := counted s.haltIn.timer }
    drvflt := u.drvflt
    link := { s.link with
      rx := { s.link.rx with gapTimer := counted s.link.rx.gapTimer }
      watchTimer := counted s.link.watchTimer } }
  acts : ∀ a, u.motion.act a = actCounted (s.motion.act a)
  lanes : ∀ l, u.motion.lane l = laneCounted (s.time + 1) (s.motion.lane l)
  queue : u.motion.queue = s.motion.queue.map fun q => { q with limit := counted q.limit }
  marks : u.motion.marks = s.motion.marks
  poolFree : u.motion.poolFree = s.motion.poolFree
  inputs : ∀ i, u.inputs.get i = { s.inputs.get i with timer := counted (s.inputs.get i).timer }
  drvflt : ∀ k, u.drvflt.get k = { s.drvflt.get k with timer := counted (s.drvflt.get k).timer }

/-- The entry of a lane's head at the tail of the start queue (R67, R68). -/
def headEntry (ix : LaneIx) (l : Lane) : List QEntry :=
  l.steps.head?.toList.map fun h => { lane := ix, limit := Timer.start h.startLimit }

/-- The tick's own event has been taken on `s`: in RUN the heads whose wait is over have joined the tail of the start queue in
one event, lane 0 first (R44, R68, R131, log 4); nothing else has changed but for what the end of the event does. -/
structure TickTaken (s u : State) : Prop where
  frame : u = { s with tickOwed := false, motion := u.motion }
  acts : u.motion.acts = s.motion.acts
  joined : ∀ l, s.modes.mode = .run → waitOver (s.motion.lane l) = true → u.motion.lane l = queuedLane (s.motion.lane l)
  others : ∀ l, ¬ (s.modes.mode = .run ∧ waitOver (s.motion.lane l) = true) → u.motion.lane l = s.motion.lane l
  queue : u.motion.queue = s.motion.queue ++
    (allLanes.filter fun l => s.modes.mode == .run && waitOver (s.motion.lane l)).flatMap
      fun l => headEntry l (s.motion.lane l)
  marks : u.motion.marks = s.motion.marks
  poolFree : u.motion.poolFree = s.motion.poolFree

/-- A head joins the start queue in the event of its evaluation in RUN (R35, R43). -/
def joinsAtOnce (h : Step) : Bool :=
  match h.cond with
  | .next => true
  | .onInput _ _ => true
  | .onMark _ => true
  | .delay d => d == 0
  | .atTime _ => h.reached

/-- A lane that has evaluated its head in RUN (R43). -/
def evaluatedLane (l : Lane) : Lane :=
  match l.steps with
  | [] => l
  | h :: rest =>
    if joinsAtOnce h then queuedLane l
    else { l with
      state := .waiting
      steps := { h with run := .waiting } :: rest
      delayTimer := match h.cond with
        | .delay d => some d
        | _ => none }

/-- A lane whose head is HELD, out of the start queue, in a state (R43, R45, R56, R64). -/
def heldLane (st : LaneState) (l : Lane) : Lane :=
  { l.mapHead (fun h => { h with run := .held }) with state := st, delayTimer := none }

/-- A lane whose head is evaluated in a device mode (R43): outside RUN it is held in WAITING. -/
def evaluatedIn (mode : Mode) (l : Lane) : Lane := if mode = .run then evaluatedLane l else heldLane .waiting l

/-- The entry of a lane's head in the start queue, where its evaluation in a device mode makes it join (R67, R68). -/
def entryOf (mode : Mode) (ix : LaneIx) (l : Lane) : List QEntry :=
  match l.steps with
  | [] => []
  | h :: _ => if mode = .run ∧ joinsAtOnce h = true then [{ lane := ix, limit := Timer.start h.startLimit }] else []

/-! ## Sensors -/

/-- Position and supervised as the sensors of an actuator give them (R6, R22). -/
def tracked (v : View) (a : Actuator) : Actuator :=
  match a.cfg.sensing.reading v.x v.r with
  | .x => { a with position := .x, supervised := true }
  | .r => { a with position := .r, supervised := true }
  | .u => { a with position := .u, supervised := false }
  | .conflict => { a with position := .u, supervised := false }

/-- Both sensors used and both active (R21). -/
def conflicting (v : View) (a : Actuator) : Prop := a.cfg.sensing = .both ∧ v.x = true ∧ v.r = true

/-- The sensor at an end is used and active. -/
def sensed (v : View) (t : End) (a : Actuator) : Prop := a.cfg.sensing.has t = true ∧ v.active t = true

/-- An actuator that has entered TRAVEL toward an end, its target coil energised (R5, R13, R14). -/
def travelling (now : Time) (e : End) (a : Actuator) : Actuator :=
  { a with
    state := .travel
    target := some e
    entryTime := now
    gapTimer := none
    travelTimer := some a.cfg.travelLimit
    settleTimer := none
    lineA := if a.cfg.kind = .single then e == .x else if e = .x then true else a.lineA
    lineB := if a.cfg.kind = .single then a.lineB else if e = .r then true else a.lineB
    pulse := if a.cfg.kind = .doublePulsed then some { coil := e, left := a.cfg.pulseLength } else a.pulse }

/-- An actuator at rest at an end after a move toward it: target and timers gone, coils and pulse as they were (R17, R19).
Its owner is left open: it depends on who moved it (R20). -/
structure ArrivedAt (now : Time) (e : End) (supervised : Bool) (a b : Actuator) : Prop where
  state : b.state = .rest
  position : b.position = e.position
  supervised : b.supervised = supervised
  target : b.target = none
  entry : b.entryTime = now
  timers : b.gapTimer = none ∧ b.travelTimer = none ∧ b.settleTimer = none
  coils : b.lineA = a.lineA ∧ b.lineB = a.lineB ∧ b.pulse = a.pulse
  cfg : b.cfg = a.cfg

/-- A guard holds (R30). -/
def GuardMet (m : Motion) (g : Guard) : Prop :=
  (m.act g.other).state = .rest ∧ (m.act g.other).position = g.required.position ∧ (m.act g.other).supervised = true

/-- The input or the mark of a start condition is present (R74). -/
def CondMet (m : Motion) (v : Env) : StartCond → Prop
  | .next => True
  | .delay _ => True
  | .atTime _ => True
  | .onInput i level => (v.inputs.get i).filtered = level
  | .onMark k => m.mark k = true

/-- A queued step may start: its actuators free, their guards met, its condition met (R71 to R74), and no older entry names
one of its actuators or waits on its mark (R75); its lane has started no step in this event (R77). -/
def MayStart (v : Env) (e : Event) (older : List QEntry) (q : QEntry) : Prop :=
  ∃ h rest, (e.m.lane q.lane).steps = h :: rest ∧
    q.lane ∉ e.started ∧
    (∀ mv ∈ h.moves, (e.m.act mv.act).owner = .none ∧ (e.m.act mv.act).state ≠ .faulted ∧
      ∀ g ∈ (e.m.act mv.act).cfg.guards, GuardMet e.m g) ∧
    CondMet e.m v h.cond ∧
    ∀ o ∈ older, ∀ h' rest', (e.m.lane o.lane).steps = h' :: rest' →
      (∀ mv ∈ h'.moves, ∀ mw ∈ h.moves, mv.act ≠ mw.act) ∧ ∀ k, h'.cond = .onMark k → h.cond ≠ .onMark k

/-- The coils under an order of HOLD or RELEASE (R24, R27): HOLD leaves them, but for a running pulse, which is cut; RELEASE
commands both coils off, which for a SINGLE actuator is coil A alone (R5). -/
def coilsUnder (c : Action) (a : Actuator) : Actuator :=
  match c with
  | .hold => { a with
      lineA := a.lineA && !(a.pulse.any fun p => p.coil == .x)
      lineB := a.lineB && !(a.pulse.any fun p => p.coil == .r)
      pulse := none }
  | .release =>
    if a.managed then { a with lineA := false, lineB := a.lineB && !a.cfg.kind.double, pulse := none } else a

/-- A moving actuator that takes a stop under HOLD or RELEASE (R27): it rests where its sensors see it, unowned. -/
def stoppedBy (v : View) (c : Action) (a : Actuator) : Actuator :=
  tracked v { coilsUnder c a with
    state := .rest, target := none, owner := .none, entryTime := v.time
    gapTimer := none, travelTimer := none, settleTimer := none }

/-- A FAULTED actuator as R24 leaves it: the code recorded, target, owner, timers and supervision gone, the position kept,
the coils as the fault action says, and no pulse running. -/
structure FaultedWith (now : Time) (code : ActFault) (a b : Actuator) : Prop where
  state : b.state = .faulted
  fault : b.fault = some code
  target : b.target = none
  owner : b.owner = .none
  supervised : b.supervised = false
  entry : b.entryTime = now
  timers : b.gapTimer = none ∧ b.travelTimer = none ∧ b.settleTimer = none
  position : b.position = a.position
  cfg : b.cfg = a.cfg
  release : a.cfg.faultAction = .release → a.managed = true → b.lineA = false ∧ (a.cfg.kind.double = true → b.lineB = false)
  hold : a.cfg.faultAction = .hold → b.lineA = (coilsUnder .hold a).lineA ∧ b.lineB = (coilsUnder .hold a).lineB
  pulse : a.managed = true → b.pulse = none

/-- The ACT_FAULT notice of actuator `a` (R24). -/
def actFaultNotice (a : ActIx) (code : ActFault) : Raised :=
  { cls := .actFault, source := some a.val, detail := code.code, tag := none }

/-! ## The start of a move (R9 to R13) -/

/-- The owner that a completion leaves: a lane keeps its actuator, a jog or a safe move gives it up (R20). -/
def ownerKept : Owner → Owner
  | .lane l => .lane l
  | .none => .none
  | .jog => .none
  | .safe => .none

/-- The holding pattern of the kind at an end (R5, R10). -/
def heldAt (e : End) (a : Actuator) : Actuator :=
  match a.cfg.kind with
  | .single => { a with lineA := e == .x }
  | .doubleHeld => { a with lineA := e == .x, lineB := e == .r }
  | .doublePulsed => { a with lineA := false, lineB := false, pulse := none }
  | .none => a
  | .direct => a

/-- The coil of the other end is on: commanded on, or for DOUBLE_PULSED with its pulse running (R12). -/
def OppositeOn (e : End) (a : Actuator) : Prop :=
  (a.cfg.kind = .doubleHeld ∧ a.coil e.opposite = true) ∨
    (a.cfg.kind = .doublePulsed ∧ ∃ p, a.pulse = some p ∧ p.coil = e.opposite)

/-- Actuator `a` enters TRAVEL toward an end and leaves the event as `b`, with `r` as the result of its move: a conflict
faults it with the target coil already energised (the model's choice, log 11), an active target sensor takes it on into
SETTLE or, with settle time 0, to rest (R13, R15, R17, R21). -/
def EntersTravel (v : View) (e : End) (a b : Actuator) (r : MoveResult) : Prop :=
  (conflicting v a → FaultedWith v.time .conflict (travelling v.time e a) b ∧ r = .failed) ∧
    (¬ conflicting v a → ¬ sensed v e a → b = travelling v.time e a ∧ r = .pending) ∧
    (¬ conflicting v a → sensed v e a → a.cfg.settleTime ≠ 0 →
      b = { travelling v.time e a with state := .settle, settleTimer := some a.cfg.settleTime } ∧ r = .pending) ∧
    (¬ conflicting v a → sensed v e a → a.cfg.settleTime = 0 →
      b = { travelling v.time e a with
        state := .rest, position := e.position, supervised := true, target := none, travelTimer := none
        owner := ownerKept a.owner } ∧ r = .done)

/-- An actuator that has entered GAP: the coil of the other end is off, and a pulse is cut (R12). -/
def inGap (v : View) (e : End) (a : Actuator) : Actuator :=
  { coilsUnder .hold a with
    state := .gap, target := some e, entryTime := v.time
    lineA := (coilsUnder .hold a).lineA && e == .x
    lineB := (coilsUnder .hold a).lineB && e == .r }

/-- A move that runs: through GAP when the coil of the other end is on, else into TRAVEL at once (R12, R13, R21). -/
def RunsToward (v : View) (e : End) (a b : Actuator) (r : MoveResult) : Prop :=
  (OppositeOn e a →
    (conflicting v a → FaultedWith v.time .conflict (inGap v e a) b ∧ r = .failed) ∧
      (¬ conflicting v a → a.cfg.crossoverGap ≠ 0 →
        b = { inGap v e a with gapTimer := some a.cfg.crossoverGap } ∧ r = .pending) ∧
      (¬ conflicting v a → a.cfg.crossoverGap = 0 → EntersTravel v e (inGap v e a) b r)) ∧
    (¬ OppositeOn e a → EntersTravel v e a b r)

/-- A move toward a target starts on a managed actuator `a` for a party, and the start event leaves `b`, with `r` as the
result of the move in that event: DRIVE under a set latch (R9), RELEASE at once (R11), completion at the target (R10), or a
move that runs (R12). -/
def MoveBegins (v : View) (owner : Owner) (target : MoveTarget) (a b : Actuator) (r : MoveResult) : Prop :=
  (v.latched = true → FaultedWith v.time .drive a b ∧ r = .failed) ∧
    (v.latched = false → target = .release →
      b = { coilsUnder .release a with
        state := .rest, position := .u, supervised := false, target := none, owner := ownerKept owner
        gapTimer := none, travelTimer := none, settleTimer := none
        entryTime := if a.state = .rest then a.entryTime else v.time } ∧ r = .done) ∧
    ∀ e : End, v.latched = false → target = e.asMove →
      (a.state = .rest ∧ a.position = e.position ∧ a.supervised = true →
        b = { heldAt e a with owner := ownerKept owner } ∧ r = .done) ∧
      (¬ (a.state = .rest ∧ a.position = e.position ∧ a.supervised = true) →
        RunsToward v e
          { a with
            owner := owner, supervised := false, gapTimer := none, travelTimer := none, settleTimer := none } b r)

/-! ## What a lane makes of its results (R47 to R54) -/

/-- The move on an actuator has FAILED; the first FAILED one of the pass is kept (R47, R51). -/
def failedAt (a : ActIx) (h : Step) : Step :=
  { h with
    results := h.results.map fun p => if p.1 = a then (a, .failed) else p
    firstFailed := some (h.firstFailed.getD a) }

/-- The move on an actuator is DONE (R47). -/
def doneAt (a : ActIx) (h : Step) : Step := { h with results := h.results.map fun p => if p.1 = a then (a, .done) else p }

/-- Every PENDING move has been STOPPED (R52, R60). -/
def allStopped (h : Step) : Step :=
  { h with results := h.results.map fun p => if p.2 = .pending then (p.1, .stopped) else p }

/-- A lane whose step has failed at its head (R54). -/
def failedLane (h : Step) (rest : List Step) (l : Lane) : Lane :=
  { l with
    state := .faulted, fault := some .moveFailed, failedAct := h.firstFailed, pausePending := false, delayTimer := none
    steps := { h with run := .failed } :: rest }

/-- A RUNNING lane whose step, now `h`, holds a FAILED result: with nothing PENDING the step fails (R54), else FINISH_OTHERS
runs on (R53) and STOP_ALL stops the others and fails the step (R52). -/
def laneWithFailure (h : Step) (rest : List Step) (l : Lane) : Lane :=
  if ∃ p ∈ h.results, p.2 = .pending then
    match l.policy with
    | .finishOthers => { l with steps := h :: rest }
    | .stopAll => failedLane (allStopped h) rest l
  else failedLane h rest l

/-- The lane after the step `h` has completed at its head in a device mode (R48 to R50): the cycle counted, the step gone or
at the tail, the lane PAUSED, EMPTY, or with its next head evaluated. -/
def completedLane (mode : Mode) (h : Step) (rest : List Step) (l : Lane) : Lane :=
  let count := l.cycleCount + (if h.cycleEnd then 1 else 0)
  let steps := rest ++ (if h.recirculate then
    [{ h with run := .held, results := [], startTime := none, firstFailed := none }] else [])
  let after := { l with cycleCount := count, steps := steps, pausePending := false }
  if l.pausePending = true ∨ (h.cycleEnd = true ∧ l.cycleStop ≠ 0 ∧ count.toNat % l.cycleStop.toNat = 0) then
    { after with state := .paused }
  else if steps = [] then { after with state := .empty }
  else evaluatedIn mode after

/-- The notices of the completion of the step `h` at the head of a lane (R48, R49, R66): STEP_DONE with REPORT; CYCLE, with the
low byte of the count, where the cycle stop is reached; LANE_EMPTY where the lane is left EMPTY with its empty notice on. -/
def completionNotices (mode : Mode) (ix : LaneIx) (h : Step) (rest : List Step) (l : Lane) : List Raised :=
  let count := l.cycleCount + 1
  (if h.report then [{ cls := .stepDone, source := some ix.val, detail := 0, tag := some h.tag }] else []) ++
    (if h.cycleEnd = true ∧ l.cycleStop ≠ 0 ∧ count.toNat % l.cycleStop.toNat = 0 then
      [{ cls := .cycle, source := some ix.val, detail := count.extractLsb' 0 8, tag := none }] else []) ++
    (if (completedLane mode h rest l).state = .empty ∧ l.emptyNotice = true then
      [{ cls := .laneEmpty, source := some ix.val, detail := 0, tag := none }] else [])

/-! ## A change of a filtered level (R122) -/

/-- The WATCH notices of a change of the filtered level of input `i` to `b` (R122). -/
def watchNotices (w : Watch) (i : InputIx) (b : Bool) : List Raised :=
  match w, b with
  | .both, b => [{ cls := .watch, source := some i.val, detail := flagByte b, tag := none }]
  | .rise, true => [{ cls := .watch, source := some i.val, detail := 1, tag := none }]
  | .fall, false => [{ cls := .watch, source := some i.val, detail := 0, tag := none }]
  | _, _ => []

/-- What the actuator of a used sensor makes of a change of the sensor's filtered level, which `u` holds (R15, R16, R21 to
R23): arrival in TRAVEL, by way of SETTLE or with settle time 0 at once; the drop in SETTLE; the conflict check in motion;
no effect of any other change in motion; rest tracking; and in RUN rest supervision. -/
structure SensorTaken (s u : State) (i : InputIx) (raised : List Raised) : Prop where
  arrives : (s.motion.act (inputAct i)).state = .travel → (s.motion.act (inputAct i)).target = some (inputEnd i) →
    (u.inputs.get i).filtered = true → ¬ conflicting (u.env.view (inputAct i)) (s.motion.act (inputAct i)) →
    (s.motion.act (inputAct i)).cfg.settleTime = 0 →
    ArrivedAt s.time (inputEnd i) true (s.motion.act (inputAct i)) (u.motion.act (inputAct i))
  settles : (s.motion.act (inputAct i)).state = .travel → (s.motion.act (inputAct i)).target = some (inputEnd i) →
    (u.inputs.get i).filtered = true → ¬ conflicting (u.env.view (inputAct i)) (s.motion.act (inputAct i)) →
    (s.motion.act (inputAct i)).cfg.settleTime ≠ 0 →
    u.motion = s.motion.setAct (inputAct i) { s.motion.act (inputAct i) with
      state := .settle, entryTime := s.time
      settleTimer := some (s.motion.act (inputAct i)).cfg.settleTime }
  returns : (s.motion.act (inputAct i)).state = .settle → (s.motion.act (inputAct i)).target = some (inputEnd i) →
    (u.inputs.get i).filtered = false → (s.motion.act (inputAct i)).travelTimer.isSome = true →
    u.motion = s.motion.setAct (inputAct i) { s.motion.act (inputAct i) with
      state := .travel, entryTime := s.time, settleTimer := none }
  timesOut : (s.motion.act (inputAct i)).state = .settle → (s.motion.act (inputAct i)).target = some (inputEnd i) →
    (u.inputs.get i).filtered = false → (s.motion.act (inputAct i)).travelTimer = none →
    FaultedWith s.time .timeout (s.motion.act (inputAct i)) (u.motion.act (inputAct i)) ∧
      actFaultNotice (inputAct i) .timeout ∈ raised
  conflicts : (s.motion.act (inputAct i)).moving = true →
    conflicting (u.env.view (inputAct i)) (s.motion.act (inputAct i)) →
    FaultedWith s.time .conflict (s.motion.act (inputAct i)) (u.motion.act (inputAct i)) ∧
      actFaultNotice (inputAct i) .conflict ∈ raised
  passes : (s.motion.act (inputAct i)).moving = true →
    ¬ conflicting (u.env.view (inputAct i)) (s.motion.act (inputAct i)) →
    ¬ ((s.motion.act (inputAct i)).target = some (inputEnd i) ∧
      ((s.motion.act (inputAct i)).state = .travel ∧ (u.inputs.get i).filtered = true ∨
        (s.motion.act (inputAct i)).state = .settle ∧ (u.inputs.get i).filtered = false)) →
    u.motion = s.motion ∧ ∀ n ∈ raised, n.cls = .watch
  tracks : (s.motion.act (inputAct i)).state = .rest →
    (s.modes.mode ≠ .run ∨ (s.motion.act (inputAct i)).supervised = false) →
    u.motion = s.motion.setAct (inputAct i) (tracked (u.env.view (inputAct i)) (s.motion.act (inputAct i)))
  drifts : (s.motion.act (inputAct i)).state = .rest → s.modes.mode = .run →
    (s.motion.act (inputAct i)).supervised = true →
    (s.motion.act (inputAct i)).position = (inputEnd i).position → (u.inputs.get i).filtered = false →
    FaultedWith s.time .drift (s.motion.act (inputAct i)) (u.motion.act (inputAct i)) ∧
      actFaultNotice (inputAct i) .drift ∈ raised
  conflictsAtRest : (s.motion.act (inputAct i)).state = .rest → s.modes.mode = .run →
    (s.motion.act (inputAct i)).supervised = true →
    ((s.motion.act (inputAct i)).position = (inputEnd i).position → (u.inputs.get i).filtered = true) →
    conflicting (u.env.view (inputAct i)) (s.motion.act (inputAct i)) →
    FaultedWith s.time .conflict (s.motion.act (inputAct i)) (u.motion.act (inputAct i)) ∧
      actFaultNotice (inputAct i) .conflict ∈ raised
  rests : (s.motion.act (inputAct i)).state = .rest → s.modes.mode = .run →
    (s.motion.act (inputAct i)).supervised = true →
    ((s.motion.act (inputAct i)).position = (inputEnd i).position → (u.inputs.get i).filtered = true) →
    ¬ conflicting (u.env.view (inputAct i)) (s.motion.act (inputAct i)) → u.motion = s.motion
  still : (s.motion.act (inputAct i)).state = .off ∨ (s.motion.act (inputAct i)).state = .faulted → u.motion = s.motion

/-- A change of the filtered level of input `i`, which `u` holds with the watch setting it meets, has been handed on (R122):
the WATCH notice of the edge, and the change at the actuator where its sensing uses the input; a free input moves nothing. -/
structure HandedOn (s u : State) (i : InputIx) (raised : List Raised) : Prop where
  watch : (raised.filter fun n => n.cls == .watch) = watchNotices (u.inputs.get i).watch i (u.inputs.get i).filtered
  free : (s.motion.act (inputAct i)).cfg.sensing.has (inputEnd i) = false →
    u.motion = s.motion ∧ raised = watchNotices (u.inputs.get i).watch i (u.inputs.get i).filtered
  used : (s.motion.act (inputAct i)).cfg.sensing.has (inputEnd i) = true → SensorTaken s u i raised

/-! ## Halt -/

/-- A safe action of EXTEND or RETRACT: a move under way toward the same end goes on with owner SAFE, every other case
starts a safe move (R29). -/
def SafeMoveTaken (v : View) (e : End) (a b : Actuator) : Prop :=
  (a.moving = true → a.target = some e → b = { a with owner := .safe }) ∧
    (¬ (a.moving = true ∧ a.target = some e) → ∃ r, MoveBegins v .safe e.asMove a b r)

/-- A managed actuator that is not FAULTED takes its safe action (R28, R29). -/
def SafeActionTaken (v : View) (a b : Actuator) : Prop :=
  match a.cfg.safeAction with
  | .hold => b = if a.moving then stoppedBy v .hold a else { a with owner := .none }
  | .release => b = if a.moving then stoppedBy v .release a else tracked v { coilsUnder .release a with owner := .none }
  | .extend => SafeMoveTaken v .x a b
  | .retract => SafeMoveTaken v .r a b

/-- The lane a halt or a link loss leaves of a lane (R63, R64). -/
def haltedLane (l : Lane) : Lane :=
  match l.state with
  | .running =>
    { l.mapHead (fun h => { h with run := .aborted }) with
      state := .faulted, fault := some .halted, failedAct := none, pausePending := false, delayTimer := none }
  | .waiting => heldLane .waiting l
  | .queued => heldLane .waiting l
  | .empty => l
  | .paused => l
  | .faulted => l

/-- The part halts: from `s` an event leaves it at `u` with the notices `raised` (R138, R141).  A RUNNING lane is
taken to hold its step. -/
structure Halts (s u : State) (raised : List Raised) (cause : HaltCause) (cls : NoticeClass) : Prop where
  modes : u.modes = { s.modes with mode := .halted, haltCause := some cause }
  queue : u.motion.queue = []
  lanes : ∀ l, ((s.motion.lane l).state = .running → (s.motion.lane l).steps ≠ []) →
    u.motion.lane l = haltedLane (s.motion.lane l)
  untouched : ∀ a, (s.motion.act a).managed = false ∨ (s.motion.act a).state = .faulted →
    u.motion.act a = s.motion.act a
  unowned : ∀ a, (s.motion.act a).managed = true → (s.motion.act a).state ≠ .off → (s.motion.act a).state ≠ .faulted →
    (u.motion.act a).owner = .none ∨ (u.motion.act a).owner = .safe
  still : ∀ a, (s.motion.act a).managed = true → (s.motion.act a).state ≠ .off → (s.motion.act a).state ≠ .faulted →
    (s.motion.act a).cfg.safeAction = .hold ∨ (s.motion.act a).cfg.safeAction = .release →
    (u.motion.act a).moving = false ∧ (u.motion.act a).owner = .none
  safe : ∀ a, (s.motion.act a).managed = true → (s.motion.act a).state ≠ .off → (s.motion.act a).state ≠ .faulted →
    SafeActionTaken (s.env.view a) (s.motion.act a) (u.motion.act a)
  notice : { cls := cls, source := none, detail := 0, tag := none } ∈ raised
  actFault : ∀ a code, (s.motion.act a).state ≠ .faulted → (u.motion.act a).state = .faulted →
    (u.motion.act a).fault = some code → actFaultNotice a code ∈ raised
  noOther : ∀ n ∈ raised, n.cls = cls ∨ n.cls = .actFault ∨ n.cls = .laneFault
  laneFault : ∀ l h rest, (s.motion.lane l).state = .running → (s.motion.lane l).steps = h :: rest →
    { cls := .laneFault, source := some l.val, detail := LaneFault.halted.code, tag := some h.tag } ∈ raised
  marks : u.motion.marks = s.motion.marks
  pool : u.motion.poolFree = s.motion.poolFree

/-! ## The link -/

/-- The receiver replaced. -/
def withRx (s : State) (r : Receiver) : State := { s with link := { s.link with rx := r } }

/-- A partial or broken frame discarded: HUNT, and the receive error count advanced, 255 staying 255 (R156, R158). -/
def discarded (s : State) : State :=
  { s with link := { s.link with
      rx := .hunt, rxErrors := if s.link.rxErrors = 255 then 255 else s.link.rxErrors + 1 } }

/-- The frame in transmission is one of the two kinds, or none. -/
def Silent (k : Link) : Prop := k.replySending = false ∧ ∀ f, k.attnSlot ≠ .sending f

/-- The arbiter has nothing to start at the end of an event: the mode is not RUN, or no head is queued. -/
def Calm (s : State) : Prop := s.modes.mode ≠ .run ∨ s.motion.queue = []

/-- A record is eligible (R99). -/
def Eligible (u : NoticeUnit) (r : Notice) : Prop :=
  r.priority ≤ u.floor ∧
    ∀ top rest, u.stack = top :: rest → r.priority < top.priority ∨ (r.priority = top.priority ∧ r.nest = true)

/-- The payload of an attention frame: the pending count, and the id, class and priority of the record CLAIM would take, or
zeros (R169, R186). -/
def attentionBytes (u : NoticeUnit) : List Byte :=
  byteOf u.waiting.length ::
    match u.waiting.find? u.eligible with
    | none => [0, 0, 0, 0]
    | some r => bytes16 r.id ++ [r.cls.code, byteOf r.priority.val]

/-- The attention frame has begun, with its content and SEQ of this moment (R169). -/
def AttentionBegun (u t : State) : Prop :=
  t.link.attnSlot = .sending (frameOf u.link.attnCounter 0x7F (attentionBytes t.notices)) ∧
    t.link.attnCounter = u.link.attnCounter + 1 ∧ t.link.replySending = false

/-- At the end of an event that left the part at `u` an idle transmitter has begun the next frame: the waiting attention
frame, else the oldest reply (R167, R169). Where attention rises at this very end it asks for an attention frame (R168), and
with replies waiting too either has begun (log 9). -/
def NextBegun (u t : State) : Prop :=
  (u.link.attnSlot = .waiting → AttentionBegun u t) ∧
  (u.link.attnSlot = .empty → ¬ (t.notices.attn = true ∧ u.notices.attn = false) →
    t.link.attnSlot = .empty ∧ t.link.attnCounter = u.link.attnCounter ∧
      t.link.replySending = !u.link.replies.isEmpty) ∧
  (u.link.attnSlot = .empty → t.notices.attn = true ∧ u.notices.attn = false →
    AttentionBegun u t ∨
      u.link.replies ≠ [] ∧ t.link.replySending = true ∧ t.link.attnSlot = .waiting ∧
        t.link.attnCounter = u.link.attnCounter)

/-- The bytes of a list taken two by two. -/
def pairs : List Byte → List (Byte × Byte)
  | a :: b :: rest => (a, b) :: pairs rest
  | _ => []

/-! ## Payloads (R179, R180) -/

/-- A configuration record within its ranges (R1, R3), for actuator `a`. -/
def ConfigInRange (a : ActIx) (c : ActConfig) : Prop :=
  20 ≤ c.travelLimit ∧ c.travelLimit ≤ 30000 ∧ c.settleTime ≤ 2000 ∧ c.crossoverGap ≤ 500 ∧ 20 ≤ c.pulseLength ∧
    c.pulseLength ≤ 1000 ∧ c.guards.length ≤ 4 ∧ (c.guards.map (·.other)).Nodup ∧ a ∉ c.guards.map (·.other)

/-- The start condition that the bytes 4 to 8 of a STEP_POST give (R35, R180). -/
def CondBytes (c : StartCond) (code a3 a2 a1 a0 : Byte) : Prop :=
  match c with
  | .next => code = 0
  | .delay d => code = 1 ∧ d = (a3 ++ a2 ++ a1 ++ a0).toNat ∧ d ≤ 600000
  | .atTime t => code = 2 ∧ t = a3 ++ a2 ++ a1 ++ a0
  | .onInput i level => code = 3 ∧ i.val = a3.toNat ∧ a2 = flagByte level
  | .onMark k => code = 4 ∧ k.val = a3.toNat

/-- The completion mark that a byte gives (R176, R180). -/
def MarkByte (m : Option MarkIx) (b : Byte) : Prop :=
  match m with
  | none => b = 0xFF
  | some k => b = byteOf k.val

/-- The code of a move's target (R177). -/
def targetByte : MoveTarget → Byte
  | .extend => 0
  | .retract => 1
  | .release => 2

/-- The bytes of a list of moves (R180). -/
def moveBytes (ms : List Move) : List Byte := ms.flatMap fun mv => [byteOf mv.act.val, targetByte mv.target]

/-- A list of moves that STEP_POST takes (R37). -/
def MovesTaken (m : Motion) (ms : List Move) : Prop :=
  1 ≤ ms.length ∧ ms.length ≤ 8 ∧ (ms.map (·.act)).Nodup ∧
    ∀ mv ∈ ms, (m.act mv.act).managed = true ∧ ¬ (mv.target = .release ∧ (m.act mv.act).cfg.kind = .single)

/-- The first step of a list with a tag, and the list without it (R61). -/
def CutsTag (tag : Tag) (steps kept : List Step) : Prop :=
  ∃ pre h post, steps = pre ++ h :: post ∧ h.tag = tag ∧ (∀ g ∈ pre, g.tag ≠ tag) ∧ kept = pre ++ post

/-! ## The laws of the part -/

/-- One actuator: OFF exactly when not managed, unowned and at U; a target and an owner while moving, a target in no other
state; a fault code exactly in FAULTED, and no owner there; supervised only in REST at a known position; each timer in the
states of R7's table, and no pulse in OFF, GAP or FAULTED (R1, R7, R8, R12 to R16). -/
def ActuatorLaw (a : Actuator) : Prop :=
  (a.state = .off ↔ a.managed = false) ∧
    (a.target.isSome = true ↔ a.moving = true) ∧
    (a.moving = true → a.owner ≠ .none) ∧
    (a.fault.isSome = true ↔ a.state = .faulted) ∧
    (a.state = .faulted → a.owner = .none) ∧
    (a.state = .off → a.owner = .none ∧ a.position = .u) ∧
    (a.supervised = true → a.state = .rest ∧ a.position ≠ .u) ∧
    (a.gapTimer.isSome = true ↔ a.state = .gap) ∧
    (a.settleTimer.isSome = true ↔ a.state = .settle) ∧
    (a.travelTimer.isSome = true → a.state = .travel ∨ a.state = .settle) ∧
    (a.state = .travel → a.travelTimer.isSome = true) ∧
    (a.pulse.isSome = true → a.cfg.kind = .doublePulsed ∧ a.state ≠ .gap ∧ a.state ≠ .faulted)

/-- The two coils of a two-coil actuator: never both commanded on, both off in GAP, and a DOUBLE_PULSED coil on only with
its pulse running (R5, R12, R14, R114). -/
def CoilLaw (a : Actuator) : Prop :=
  a.cfg.kind.double = true →
    ¬ (a.lineA = true ∧ a.lineB = true) ∧
      (a.state = .gap → a.lineA = false ∧ a.lineB = false) ∧
      (a.cfg.kind = .doublePulsed →
        (a.lineA = true → ∃ n, a.pulse = some { coil := .x, left := n }) ∧
          (a.lineB = true → ∃ n, a.pulse = some { coil := .r, left := n }))

/-- Every held step moves managed actuators alone (R3, R37, R72). -/
def StepsManaged (m : Motion) : Prop :=
  ∀ l, ∀ h ∈ (m.lane l).steps, ∀ mv ∈ h.moves, (m.act mv.act).managed = true

/-- The law of every actuator, with the law of the steps that start their moves. -/
def ActuatorsLaw (s : State) : Prop :=
  (∀ a, ActuatorLaw (s.motion.act a) ∧ CoilLaw (s.motion.act a)) ∧ StepsManaged s.motion

/-- A held step: one to eight moves on distinct actuators; results, start time and first failure absent before its start
(R34, R37, R46, R50, R58); a RUNNING step has one result for each move, in their order, and a start time (R46). -/
def StepLaw (h : Step) : Prop :=
  1 ≤ h.moves.length ∧ h.moves.length ≤ 8 ∧ (h.moves.map (·.act)).Nodup ∧
    (h.run = .held ∨ h.run = .waiting ∨ h.run = .queued →
      h.results = [] ∧ h.startTime = none ∧ h.firstFailed = none) ∧
    (h.run = .running → h.results.map (·.1) = h.moves.map (·.act) ∧ h.startTime.isSome = true)

/-- The run status of a lane's head fits the lane's state and fault code in a device mode (R40, R43). -/
def headFits (mode : Mode) (l : Lane) (run : RunStatus) : Prop :=
  match l.state with
  | .empty => False
  | .waiting => run = if mode = .run then .waiting else .held
  | .queued => run = .queued
  | .running => run = .running
  | .paused => run = .held
  | .faulted => run = if l.fault = some .moveFailed ∨ l.fault = some .startLimit then .failed else .aborted

/-- One lane in a device mode (R39, R40, R55): only its head is other than HELD, and the head's run status fits the lane's
state; a lane without a step is EMPTY or PAUSED; a pause is pending only in RUNNING; a fault code stands exactly in FAULTED
and a failed actuator exactly with MOVE_FAILED; the delay timer runs only for a WAITING DELAY head in RUN. -/
def LaneLaw (mode : Mode) (l : Lane) : Prop :=
  (∀ h ∈ l.steps, StepLaw h) ∧
    (∀ h ∈ l.steps.tail, h.run = .held) ∧
    (l.steps = [] → l.state = .empty ∨ l.state = .paused) ∧
    (∀ h rest, l.steps = h :: rest → headFits mode l h.run) ∧
    (l.pausePending = true → l.state = .running) ∧
    (l.fault.isSome = true ↔ l.state = .faulted) ∧
    (l.failedAct.isSome = true ↔ l.fault = some .moveFailed) ∧
    (l.delayTimer.isSome = true →
      l.state = .waiting ∧ mode = .run ∧ ∃ h d rest, l.steps = h :: rest ∧ h.cond = .delay d)

/-- The results of the step of a RUNNING lane (R47, R51 to R54): some move is PENDING; a PENDING move's actuator moves and a
DONE one's rests, both owned by the lane; a FAILED one's is not the lane's; nothing is STOPPED; a first failure is recorded
exactly when a result is FAILED, and under STOP_ALL none is. -/
def ResultsLaw (m : Motion) (l : LaneIx) (h : Step) : Prop :=
  (∃ p ∈ h.results, p.2 = .pending) ∧
    (∀ p ∈ h.results,
      (p.2 = .pending → (m.act p.1).moving = true ∧ (m.act p.1).owner = .lane l) ∧
      (p.2 = .done → (m.act p.1).state = .rest ∧ (m.act p.1).owner = .lane l) ∧
      (p.2 = .failed → (m.act p.1).owner ≠ .lane l) ∧
      p.2 ≠ .stopped) ∧
    (h.firstFailed.isSome = true ↔ ∃ p ∈ h.results, p.2 = .failed) ∧
    ((m.lane l).policy = .stopAll → ∀ p ∈ h.results, p.2 ≠ .failed)

/-- The law of the lanes: each lane's own, the results of each RUNNING step, an actuator owned by a lane only under a RUNNING
step of that lane that moves it, and outside RUN no lane RUNNING and no actuator owned by a lane (R7, R39, R40, R64). -/
def LanesLaw (s : State) : Prop :=
  (∀ l, LaneLaw s.modes.mode (s.motion.lane l)) ∧
    (∀ l h rest, (s.motion.lane l).state = .running → (s.motion.lane l).steps = h :: rest → ResultsLaw s.motion l h) ∧
    (∀ a l, (s.motion.act a).owner = .lane l → (s.motion.lane l).state = .running ∧
      ∃ h rest, (s.motion.lane l).steps = h :: rest ∧ ∃ p ∈ h.results, p.1 = a) ∧
    (s.modes.mode ≠ .run →
      (∀ l, (s.motion.lane l).state ≠ .running) ∧ ∀ a l, (s.motion.act a).owner ≠ .lane l)

/-- The law of the step pool: held and free entries make 64, and no lane holds more than 32 (R36, R39). -/
def PoolLaw (s : State) : Prop :=
  s.motion.held 0 + s.motion.held 1 + s.motion.held 2 + s.motion.held 3 + s.motion.poolFree = 64 ∧
    ∀ l, s.motion.held l ≤ 32

/-- The law of the start queue: empty outside RUN, at most one entry per lane, an entry for a lane exactly when the lane is
QUEUED, and a QUEUED lane holds a step (R67). A delay expiry whose end is open has its lane QUEUED in RUN (log 24). -/
def StartQueueLaw (s : State) : Prop :=
  (s.modes.mode ≠ .run → s.motion.queue = []) ∧
    (s.motion.queue.map (·.lane)).Nodup ∧
    (∀ l, l ∈ s.motion.queue.map (·.lane) ↔ (s.motion.lane l).state = .queued) ∧
    (∀ l, (s.motion.lane l).state = .queued → (s.motion.lane l).steps ≠ []) ∧
    ∀ l, s.openEnd = some l → s.modes.inReset = none ∧ s.modes.mode = .run ∧ (s.motion.lane l).state = .queued

/-- A record may stand on the stack directly above another (R98). -/
def mayStandOn (upper lower : Notice) : Prop :=
  upper.priority < lower.priority ∨ (upper.priority = lower.priority ∧ upper.nest = true)

/-- The law of the service stack, its top first (R98). -/
def StackLaw (u : NoticeUnit) : Prop := u.stack.length ≤ 8 ∧ u.stack.Pairwise mayStandOn

/-- The law of the pending list: at most 32 records, no two of one class and source, in order of priority (R92, R97). -/
def PendingLaw (u : NoticeUnit) : Prop :=
  u.waiting.length ≤ 32 ∧
    u.waiting.Pairwise (fun a b => ¬ (a.cls = b.cls ∧ a.source = b.source)) ∧
    u.waiting.Pairwise fun a b => a.priority ≤ b.priority

/-- The law of the ids: none is 0, no two records share one, and the counter is not 0 (R95). -/
def IdLaw (u : NoticeUnit) : Prop :=
  u.idsInUse.Nodup ∧ 0 ∉ u.idsInUse ∧ u.nextId ≠ 0

/-- The laws of the notice unit's records. -/
def NoticesLaw (s : State) : Prop := StackLaw s.notices ∧ PendingLaw s.notices ∧ IdLaw s.notices

/-- The law of ATTN#: asserted exactly while the attention condition holds, and released during a reset (R101). -/
def AttentionLaw (s : State) : Prop :=
  (s.modes.inReset = none → s.notices.attn = s.notices.attention) ∧ (s.modes.inReset ≠ none → s.notices.attn = false)

/-- The law of the transmit queue: at most four replies (R165), one of them in transmission at most, and never together
with the attention frame (R167). -/
def TransmitLaw (s : State) : Prop :=
  s.link.replies.length ≤ 4 ∧
    (s.link.replySending = true → s.link.replies ≠ []) ∧
    (s.link.replySending = true → ∀ f, s.link.attnSlot ≠ .sending f)

end Sys2Proof.Safety
end

