-- ==== Sys2Proof/Certificates/Slice0/Obligations.lean ====
section
/-! DEFINITION. The statements for the provers.  In all of them a command's own effect is the state `u` of `Yields`, to which
the end of the event is then applied (`After`, Safety.lean); log numbers name notes/assumptions. -/

open Sys2Proof Sys2Proof.Machine Sys2Proof.Safety

/-! ## The machine -/

/-- A step takes the command at the front of the queue, with the queue's rest; on an empty queue it idles (log 1). -/
def Obligations.StepTakesTheFrontCommand : Prop :=
  (∀ c rest s, s.pending = c :: rest → step s = exec c { s with pending := rest }) ∧
    ∀ s, s.pending = [] → step s = .next s

/-- No command faults or is refused, and none changes the queue of commands. -/
def Obligations.EveryCommandAnswersANextState : Prop :=
  ∀ c s, ∃ t, exec c s = .next t ∧ t.pending = s.pending

/-- The state after reset has every value the spec gives for a power-on reset; the pin levels are log 13's choice. The
state after reset obeys every law of the part. -/
def Obligations.ResetLeavesTheStatedValuesAndTheLaws : Prop :=
  (AfterReset State.reset State.reset ∧ Defaulted 0 State.reset ∧ State.reset.modes.resetCause = .power ∧
     State.reset.pending = []) ∧
  (ActuatorsLaw State.reset ∧ LanesLaw State.reset ∧ PoolLaw State.reset ∧ StartQueueLaw State.reset ∧ NoticesLaw State.reset ∧
     AttentionLaw State.reset ∧ TransmitLaw State.reset)

/-! ## Resets -/

/-- POWER_ON and RESET_ASSERTED begin a reset; RESET# during a power-on reset is part of it (log 15). -/
def Obligations.PowerOnAndResetPinHoldThePart : Prop :=
  ∀ s,
    (∃ t, exec .powerOn s = .next t ∧ t.modes.inReset = some .power ∧ HeldInReset s t) ∧
    (s.modes.inReset ≠ some .power →
      ∃ t, exec .resetAsserted s = .next t ∧ t.modes.inReset = some .pin ∧ HeldInReset s t) ∧
    (s.modes.inReset = some .power → exec .resetAsserted s = .next s)

/-- While a power-on or pin reset lasts, every other command changes nothing, and the pins alone take new levels (log 15). -/
def Obligations.NothingElseActsDuringAReset : Prop :=
  (∀ c s, s.modes.inReset ≠ none → actsInReset c = false → exec c s = .next s) ∧
    (∀ i level s, s.modes.inReset ≠ none → ∃ t, exec (.inputRawChange i level) s = .next t ∧
      t = { s with inputs := t.inputs } ∧ t.inputs.get i = { s.inputs.get i with raw := level } ∧
      ∀ j, j ≠ i → t.inputs.get j = s.inputs.get j) ∧
    (∀ level s, s.modes.inReset ≠ none →
      exec (.haltPinChange level) s = .next { s with haltIn := { s.haltIn with pin := level } }) ∧
    ∀ k level s, s.modes.inReset ≠ none → ∃ t, exec (.drvfltPinChange k level) s = .next t ∧
      t = { s with drvflt := t.drvflt } ∧ t.drvflt.get k = { s.drvflt.get k with pin := level } ∧
      ∀ j, j ≠ k → t.drvflt.get j = s.drvflt.get j

/-- RESET_END and RESTART0_TAKES_EFFECT give every block its default values; a RESET_END with no reset in progress changes
nothing (log 15), and a restart takes effect when its reply is the frame in transmission (log 6). -/
def Obligations.DefaultingResetsGiveDefaultValues : Prop :=
  (∀ s k straps, s.modes.inReset = some k → ∃ t, exec (.resetEnd straps) s = .next t ∧ AfterReset s t ∧
      Defaulted straps t ∧ t.modes.resetCause = match k with | .power => .power | .pin => .pin) ∧
    (∀ s straps, Operating s → exec (.resetEnd straps) s = .next s) ∧
    ∀ s straps, Operating s → s.modes.pendingRestart = some .level0 → s.link.replySending = true →
      s.link.replies.length = 1 → ∃ t, exec (.restart0TakesEffect straps) s = .next t ∧ AfterReset s t ∧
        Defaulted straps t ∧ t.modes.resetCause = .restart0

/-- RESTART1_TAKES_EFFECT keeps the configuration, machine time and the link speed, empties everything else, and puts each
managed actuator in REST from its sensors (log 6). -/
def Obligations.RestartOneKeepsTheConfiguration : Prop :=
  ∀ s, Operating s → s.modes.pendingRestart = some .level1 → s.link.replySending = true → s.link.replies.length = 1 →
    ∃ t, exec .restart1TakesEffect s = .next t ∧ AfterReset s t ∧ KeptByRestart s t ∧ t.modes.resetCause = .restart1 ∧
      (∀ a, (s.motion.act a).managed = true → (t.motion.act a).state = .rest ∧
        t.motion.act a = tracked (t.env.view a) (t.motion.act a)) ∧
      ∀ a, (s.motion.act a).managed = false → (t.motion.act a).state = .off ∧ (t.motion.act a).position = .u ∧
        (t.motion.act a).supervised = false

/-- RESTART is answered OK with its level and is recorded as the pending restart, nothing else; a level above 1 is
BAD_ARG. LINK_WATCH: 0 stops the watch and 50 to 10,000 start it afresh with the new setting, which the reply carries;
any other value is BAD_ARG. -/
def Obligations.RestartAndLinkWatchTakeTheirOperand : Prop :=
  (∀ s seq b, Takes s seq →
     (∀ level, b = RestartLevel.code level →
       Yields (.restart seq [b]) s
         { answering s seq 0x05 .ok [b] with modes := { s.modes with pendingRestart := some level } } []) ∧
     (1 < b.toNat → Refuses (.restart seq [b]) s (answering s seq 0x05 .badArg []))) ∧
  (∀ s seq hi lo, Takes s seq → ∀ n, n = (hi ++ lo : BitVec 16).toNat →
     (n = 0 ∨ (50 ≤ n ∧ n ≤ 10000) → ∀ u, u = answering s seq 0x07 .ok [hi, lo] →
       Yields (.linkWatch seq [hi, lo]) s
         { u with link := { u.link with watchSetting := n, watchTimer := if n = 0 then none else some n } } []) ∧
     ((1 ≤ n ∧ n ≤ 49) ∨ 10000 < n → Refuses (.linkWatch seq [hi, lo]) s (answering s seq 0x07 .badArg [])))

/-! ## Time -/

/-- TICK advances machine time by one, counts every running timer down by one and tests every held AT_TIME step, before
every event of the tick (the model's choice, log 23). Then comes the tick's own event, in which the WAITING heads whose time is
reached join the queue, lane 0 first (log 4). Where expiries fall on the same tick in RUN, it is left outstanding beside them,
so that either may be taken first, as R68 and R70 allow (the model's way of leaving the order open, logs 2 and 22). What is
outstanding is taken before the next tick is counted: the tick's own event, and each expiry as its own command takes it, in a
fixed order (the model's choice, log 2). -/
def Obligations.ATickCountsTimeAndTimers : Prop :=
  (∀ s, Operating s → ∃ t, exec .tick s = .next t ∧ t.time = s.time + 1) ∧
    (∀ s, Operating s → NothingDue s → s.tickOwed = false → ∃ u, TickCounted s u ∧
      (s.modes.mode = .run → ¬ NothingDue u → exec .tick s = .next { u with tickOwed := true }) ∧
      (s.modes.mode ≠ .run ∨ NothingDue u → ∃ w, Yields .tick s w [] ∧ TickTaken u w)) ∧
    (∀ s, Operating s → s.tickOwed = true → ∃ w t, TickTaken s w ∧ After w [] t ∧ exec .tick s = exec .tick t) ∧
    ∀ s t, Operating s → s.tickOwed = false → t = expiryCommands.foldl nextOf s → ∃ u, TickCounted t u ∧
      (t.modes.mode = .run → ¬ NothingDue u → exec .tick s = .next { u with tickOwed := true }) ∧
      (t.modes.mode ≠ .run ∨ NothingDue u → ∃ w, Yields .tick s w [] ∧ TickTaken u w)

/-- A timer started with n ms, n at least 1, expires on the n-th tick after its start and on none before, a length of 0
starts none, and an expiry command whose timer is not due changes nothing (log 2). A time is reached from the moment the
count equals it, for 2^31 counts, and for no other (R130). -/
def Obligations.TimersExpireAndTimesAreReached : Prop :=
  ((∀ n, 1 ≤ n → ∀ k, k ≤ n → (Timer.due (Timer.tick^[k] (Timer.start n)) = true ↔ k = n)) ∧
     Timer.start 0 = none ∧
     ∀ s, s.openEnd = none →
       (∀ a, ¬ Due (s.motion.act a).gapTimer → exec (.gapTimerExpiry a) s = .next s) ∧
       (∀ a, ¬ Due (s.motion.act a).travelTimer → exec (.travelTimerExpiry a) s = .next s) ∧
       (∀ a, ¬ Due (s.motion.act a).settleTimer → exec (.settleTimerExpiry a) s = .next s) ∧
       (∀ a, (∀ p, (s.motion.act a).pulse = some p → p.left ≠ 0) → exec (.pulseTimerExpiry a) s = .next s) ∧
       (∀ l, ¬ Due (s.motion.lane l).delayTimer → exec (.delayTimerExpiry l) s = .next s) ∧
       (∀ l, (∀ q ∈ s.motion.queue, q.lane = l → ¬ Due q.limit) → exec (.startLimitExpiry l) s = .next s) ∧
       (∀ i, ¬ Due (s.inputs.get i).timer → exec (.stabilityTimerExpiry i) s = .next s) ∧
       (¬ Due s.haltIn.timer → exec .haltFilterExpiry s = .next s) ∧
       (∀ k, ¬ Due (s.drvflt.get k).timer → exec (.drvfltFilterExpiry k) s = .next s) ∧
       (¬ Due s.link.rx.gapTimer → exec .interByteGapExpiry s = .next s) ∧
       (¬ Due s.link.watchTimer → exec .linkWatchExpiry s = .next s)) ∧
  ((∀ now t, timeReached now t = true ↔ (now - t).toNat < 2 ^ 31) ∧
     ∀ (t : Time) (k : Nat), k < 2 ^ 32 → (timeReached (t + BitVec.ofNat 32 k) t = true ↔ k < 2 ^ 31))

/-- AT_TIME_REACHED sets the indicator of a held step whose time is reached; a head that waits for it in RUN joins the start
queue, and no other lane, actuator or mark changes (log 4). For a WAITING head whose indicator the tick has set, it takes the
tick's own event where that is outstanding (log 22). -/
def Obligations.AtTimeReachedSetsTheIndicator : Prop :=
  (∀ s l place h t, Operating s → (s.motion.lane l).steps[place]? = some h → h.cond = .atTime t → h.reached = false →
    (s.time - t).toNat < 2 ^ 31 →
    ∃ u, Yields (.atTimeReached l place) s u [] ∧ u = { s with motion := u.motion } ∧
      u.motion.acts = s.motion.acts ∧ u.motion.marks = s.motion.marks ∧ u.motion.poolFree = s.motion.poolFree ∧
      (∀ j, j ≠ l → u.motion.lane j = s.motion.lane j) ∧
      (s.modes.mode ≠ .run ∨ (s.motion.lane l).state ≠ .waiting →
        u.motion.lane l = { s.motion.lane l with
          steps := (s.motion.lane l).steps.set place { h with reached := true } } ∧
        u.motion.queue = s.motion.queue) ∧
      (s.modes.mode = .run → (s.motion.lane l).state = .waiting → place = 0 →
        u.motion.lane l = { s.motion.lane l with
          state := .queued, delayTimer := none
          steps := (s.motion.lane l).steps.set 0 { h with reached := true, run := .queued } } ∧
        u.motion.queue = s.motion.queue ++ [{ lane := l, limit := Timer.start h.startLimit }])) ∧
  ∀ s l h rest t, Operating s → s.tickOwed = true → s.modes.mode = .run → (s.motion.lane l).state = .waiting →
    (s.motion.lane l).steps = h :: rest → h.cond = .atTime t → h.reached = true →
    ∃ u, Yields (.atTimeReached l 0) s u [] ∧ TickTaken s u

/-! ## Actuator timers -/

/-- GAP_TIMER_EXPIRY takes a two-coil actuator from GAP into TRAVEL with its target coil energised; both sensors active fault
it with CONFLICT, with the coil energised before (the model's choice, log 11), and an active target sensor takes it on into
SETTLE or, with settle time 0, to rest. -/
def Obligations.GapExpiryEntersTravel : Prop :=
  ∀ s a e, Operating s → (s.motion.act a).gapTimer = some 0 → (s.motion.act a).state = .gap →
    (s.motion.act a).target = some e → (s.motion.act a).cfg.kind.double = true →
    (¬ conflicting (s.env.view a) (s.motion.act a) → ¬ sensed (s.env.view a) e (s.motion.act a) →
      Yields (.gapTimerExpiry a) s { s with motion := s.motion.setAct a (travelling s.time e (s.motion.act a)) } []) ∧
    (¬ conflicting (s.env.view a) (s.motion.act a) → sensed (s.env.view a) e (s.motion.act a) →
      (s.motion.act a).cfg.settleTime ≠ 0 →
      Yields (.gapTimerExpiry a) s
        { s with motion := (s.motion.setAct a
          { travelling s.time e (s.motion.act a) with
            state := .settle, settleTimer := some (s.motion.act a).cfg.settleTime }) } []) ∧
    (¬ conflicting (s.env.view a) (s.motion.act a) → sensed (s.env.view a) e (s.motion.act a) →
      (s.motion.act a).cfg.settleTime = 0 →
      ∃ u raised, Yields (.gapTimerExpiry a) s u raised ∧ u = { s with motion := u.motion } ∧
        ArrivedAt s.time e true (travelling s.time e (s.motion.act a)) (u.motion.act a)) ∧
    (conflicting (s.env.view a) (s.motion.act a) →
      ∃ u raised, Yields (.gapTimerExpiry a) s u raised ∧ u = { s with motion := u.motion } ∧ actFaultNotice a .conflict ∈ raised ∧
        FaultedWith s.time .conflict (travelling s.time e (s.motion.act a)) (u.motion.act a))

/-- TRAVEL_TIMER_EXPIRY in TRAVEL: TIMEOUT with the target side sensed; else STUCK with the departure sensor active, and
timed arrival, unsupervised, without; in SETTLE the limit is spent and nothing else happens. -/
def Obligations.TravelExpiryFaultsOrArrives : Prop :=
  ∀ s a e, Operating s → (s.motion.act a).travelTimer = some 0 → (s.motion.act a).target = some e →
    ((s.motion.act a).state = .travel → (s.motion.act a).cfg.sensing.has e = true →
      ∃ u raised, Yields (.travelTimerExpiry a) s u raised ∧ u = { s with motion := u.motion } ∧
        actFaultNotice a .timeout ∈ raised ∧ FaultedWith s.time .timeout (s.motion.act a) (u.motion.act a)) ∧
    ((s.motion.act a).state = .travel → (s.motion.act a).cfg.sensing.has e = false →
      sensed (s.env.view a) e.opposite (s.motion.act a) →
      ∃ u raised, Yields (.travelTimerExpiry a) s u raised ∧ u = { s with motion := u.motion } ∧
        actFaultNotice a .stuck ∈ raised ∧ FaultedWith s.time .stuck (s.motion.act a) (u.motion.act a)) ∧
    ((s.motion.act a).state = .travel → (s.motion.act a).cfg.sensing.has e = false →
      ¬ sensed (s.env.view a) e.opposite (s.motion.act a) →
      ∃ u raised, Yields (.travelTimerExpiry a) s u raised ∧ u = { s with motion := u.motion } ∧
        ArrivedAt s.time e false (s.motion.act a) (u.motion.act a)) ∧
    ((s.motion.act a).state = .settle →
      Yields (.travelTimerExpiry a) s
        { s with motion := s.motion.setAct a { s.motion.act a with travelTimer := none } } [])

/-- SETTLE_TIMER_EXPIRY completes the move: the actuator rests at its target, supervised; a jog ends with JOG_DONE, a
safe move with no notice, both unowned. PULSE_TIMER_EXPIRY commands the pulsed coil off and changes nothing else. -/
def Obligations.SettleAndPulseExpiries : Prop :=
  (∀ s a e, Operating s → (s.motion.act a).settleTimer = some 0 → (s.motion.act a).state = .settle →
     (s.motion.act a).target = some e →
     ∃ u raised, Yields (.settleTimerExpiry a) s u raised ∧ u = { s with motion := u.motion } ∧
       ArrivedAt s.time e true (s.motion.act a) (u.motion.act a) ∧
       (∀ b, b ≠ a → (s.motion.act a).owner = .jog ∨ (s.motion.act a).owner = .safe →
         u.motion.act b = s.motion.act b) ∧
       ((s.motion.act a).owner = .jog → (u.motion.act a).owner = .none ∧ u.motion.lanes = s.motion.lanes ∧
         raised = [{ cls := .jogDone, source := some a.val, detail := e.code, tag := none }]) ∧
       ((s.motion.act a).owner = .safe → (u.motion.act a).owner = .none ∧ u.motion.lanes = s.motion.lanes ∧ raised = [])) ∧
  (∀ s a e, Operating s → (s.motion.act a).pulse = some { coil := e, left := 0 } →
     Yields (.pulseTimerExpiry a) s
       { s with motion := s.motion.setAct a { s.motion.act a with
           pulse := none
           lineA := if e = .x then false else (s.motion.act a).lineA
           lineB := if e = .r then false else (s.motion.act a).lineB } } [])

/-! ## Lanes and the start arbiter -/

/-- A DONE result (here by a settle expiry). The last one completes the step of a lane: its actuators are released, its mark set,
the cycle counted, the step returned to the pool or moved to the tail, and the lane PAUSED, EMPTY, or with its next head
evaluated, which joins the tail of the queue where it joins at once. The notices are STEP_DONE with REPORT, CYCLE where the
cycle stop is reached, LANE_EMPTY where the lane is left EMPTY with its empty notice on, and no other. With other results
PENDING the actuator rests, still owned by its lane, the result is DONE, the step runs on, and nothing else changes. As the
last PENDING one beside a FAILED one it fails the step: no mark, no STEP_DONE, the owners released, LANE_FAULT raised, and the
failed actuator the first that failed. -/
def Obligations.TheLastDoneMoveCompletesTheStep : Prop :=
  (∀ s a e l h rest, Operating s → (s.motion.act a).settleTimer = some 0 → (s.motion.act a).state = .settle →
    (s.motion.act a).target = some e → (s.motion.act a).owner = .lane l → (s.motion.lane l).state = .running →
    (s.motion.lane l).steps = h :: rest → (∃ mv ∈ h.moves, mv.act = a) →
    (∀ p ∈ h.results, p.1 ≠ a → p.2 = .done) →
    ∃ u, Yields (.settleTimerExpiry a) s u (completionNotices s.modes.mode l h rest (s.motion.lane l)) ∧
      u = { s with motion := u.motion } ∧
      ArrivedAt s.time e true (s.motion.act a) (u.motion.act a) ∧
      (∀ mv ∈ h.moves, mv.act ≠ a → u.motion.act mv.act = { s.motion.act mv.act with owner := .none }) ∧
      (∀ b, (∀ mv ∈ h.moves, mv.act ≠ b) → u.motion.act b = s.motion.act b) ∧
      u.motion.lane l = completedLane s.modes.mode h rest (s.motion.lane l) ∧
      (∀ mv ∈ h.moves, (u.motion.act mv.act).owner = .none) ∧
      (∀ k, u.motion.mark k = (s.motion.mark k || h.mark == some k)) ∧
      u.motion.queue = s.motion.queue ++
        (if (u.motion.lane l).state = .queued then headEntry l (u.motion.lane l) else []) ∧
      (u.motion.lane l).cycleCount = (s.motion.lane l).cycleCount + (if h.cycleEnd then 1 else 0) ∧
      (u.motion.lane l).steps.map (·.tag) = (rest ++ (if h.recirculate then [h] else [])).map (·.tag) ∧
      u.motion.poolFree = s.motion.poolFree + (if h.recirculate then 0 else 1) ∧
      (u.motion.lane l).pausePending = false ∧
      ((s.motion.lane l).pausePending = true → (u.motion.lane l).state = .paused) ∧
      ((s.motion.lane l).pausePending = false → h.cycleEnd = false → rest = [] → h.recirculate = false →
        (u.motion.lane l).state = .empty) ∧
      (∀ j, j ≠ l → u.motion.lane j = s.motion.lane j)) ∧
  (∀ s a e l h rest, Operating s → (s.motion.act a).settleTimer = some 0 → (s.motion.act a).state = .settle →
    (s.motion.act a).target = some e → (s.motion.act a).owner = .lane l → (s.motion.lane l).state = .running →
    (s.motion.lane l).steps = h :: rest → (∃ p ∈ h.results, p.1 ≠ a ∧ p.2 = .pending) →
    (s.motion.lane l).policy = .finishOthers ∨ (∀ p ∈ h.results, p.1 ≠ a → p.2 ≠ .failed) →
    ∃ u, Yields (.settleTimerExpiry a) s u [] ∧ u = { s with motion := u.motion } ∧
      ArrivedAt s.time e true (s.motion.act a) (u.motion.act a) ∧ (u.motion.act a).owner = .lane l ∧
      (∀ b, b ≠ a → u.motion.act b = s.motion.act b) ∧
      u.motion.lane l = { s.motion.lane l with steps := doneAt a h :: rest } ∧
      (∀ j, j ≠ l → u.motion.lane j = s.motion.lane j) ∧
      u.motion.queue = s.motion.queue ∧ u.motion.marks = s.motion.marks ∧ u.motion.poolFree = s.motion.poolFree) ∧
  ∀ s a e l h rest, Operating s → (s.motion.act a).settleTimer = some 0 → (s.motion.act a).state = .settle →
    (s.motion.act a).target = some e → (s.motion.act a).owner = .lane l → (s.motion.lane l).state = .running →
    (s.motion.lane l).steps = h :: rest → (∃ mv ∈ h.moves, mv.act = a) →
    (∀ p ∈ h.results, p.1 ≠ a → p.2 ≠ .pending) → (∃ p ∈ h.results, p.1 ≠ a ∧ p.2 = .failed) →
    ∃ u, Yields (.settleTimerExpiry a) s u
        [{ cls := .laneFault, source := some l.val, detail := LaneFault.moveFailed.code, tag := some h.tag }] ∧
      u = { s with motion := u.motion } ∧
      ArrivedAt s.time e true (s.motion.act a) (u.motion.act a) ∧ (u.motion.act a).owner = .none ∧
      (∀ mv ∈ h.moves, mv.act ≠ a → u.motion.act mv.act = { s.motion.act mv.act with
        owner := if (s.motion.act mv.act).owner = .lane l then .none else (s.motion.act mv.act).owner }) ∧
      (∀ b, (∀ mv ∈ h.moves, mv.act ≠ b) → u.motion.act b = s.motion.act b) ∧
      u.motion.lane l = laneWithFailure (doneAt a h) rest (s.motion.lane l) ∧
      (u.motion.lane l).state = .faulted ∧ (u.motion.lane l).failedAct = h.firstFailed ∧
      (∀ j, j ≠ l → u.motion.lane j = s.motion.lane j) ∧
      u.motion.queue = s.motion.queue ∧ u.motion.marks = s.motion.marks ∧ u.motion.poolFree = s.motion.poolFree

/-- A result FAILED with no other result PENDING fails the step (here by a timeout): the lane is FAULTED with MOVE_FAILED and
the actuator of the pass's first failure, the step stays at its head as FAILED, the actuators it still owns are released, and
LANE_FAULT is raised after ACT_FAULT. With other results PENDING, FINISH_OTHERS lets them run on and the lane stays RUNNING;
STOP_ALL stops their actuators, whose coils follow the stop action, records them STOPPED, and fails the step in the same
event. -/
def Obligations.TheLastFailedMoveFailsTheStep : Prop :=
  (∀ s a e l h rest, Operating s → (s.motion.act a).travelTimer = some 0 → (s.motion.act a).state = .travel →
    (s.motion.act a).target = some e → (s.motion.act a).cfg.sensing.has e = true → (s.motion.act a).owner = .lane l →
    (s.motion.lane l).state = .running → (s.motion.lane l).steps = h :: rest →
    (∃ r, (a, r) ∈ h.results) → (∀ p ∈ h.results, p.1 ≠ a → p.2 ≠ .pending) →
    ∃ u, Yields (.travelTimerExpiry a) s u
        [actFaultNotice a .timeout,
          { cls := .laneFault, source := some l.val, detail := LaneFault.moveFailed.code, tag := some h.tag }] ∧
      u = { s with motion := u.motion } ∧
      FaultedWith s.time .timeout (s.motion.act a) (u.motion.act a) ∧
      u.motion.lane l = laneWithFailure (failedAt a h) rest (s.motion.lane l) ∧
      (∀ mv ∈ h.moves, mv.act ≠ a → u.motion.act mv.act = { s.motion.act mv.act with
        owner := if (s.motion.act mv.act).owner = .lane l then .none else (s.motion.act mv.act).owner }) ∧
      (∀ b, b ≠ a → (∀ mv ∈ h.moves, mv.act ≠ b) → u.motion.act b = s.motion.act b) ∧
      (u.motion.lane l).state = .faulted ∧ (u.motion.lane l).fault = some .moveFailed ∧
      (u.motion.lane l).failedAct = some (h.firstFailed.getD a) ∧ (u.motion.lane l).pausePending = false ∧
      (u.motion.lane l).steps.map (fun g => (g.tag, g.run)) = (h.tag, .failed) :: rest.map (fun g => (g.tag, g.run)) ∧
      (∀ mv ∈ h.moves, (u.motion.act mv.act).owner ≠ .lane l) ∧
      u.motion.queue = s.motion.queue ∧ u.motion.marks = s.motion.marks ∧ u.motion.poolFree = s.motion.poolFree ∧
      ∀ j, j ≠ l → u.motion.lane j = s.motion.lane j) ∧
  ∀ s a e l h rest, Operating s → (s.motion.act a).travelTimer = some 0 → (s.motion.act a).state = .travel →
    (s.motion.act a).target = some e → (s.motion.act a).cfg.sensing.has e = true → (s.motion.act a).owner = .lane l →
    (s.motion.lane l).state = .running → (s.motion.lane l).steps = h :: rest →
    (∃ r, (a, r) ∈ h.results) → (∃ b, b ≠ a ∧ (b, MoveResult.pending) ∈ h.results) →
    ∃ u, u = { s with motion := u.motion } ∧
      FaultedWith s.time .timeout (s.motion.act a) (u.motion.act a) ∧
      u.motion.lane l = laneWithFailure (failedAt a h) rest (s.motion.lane l) ∧
      (∀ j, j ≠ l → u.motion.lane j = s.motion.lane j) ∧
      u.motion.queue = s.motion.queue ∧ u.motion.marks = s.motion.marks ∧ u.motion.poolFree = s.motion.poolFree ∧
      ((s.motion.lane l).policy = .finishOthers →
        Yields (.travelTimerExpiry a) s u [actFaultNotice a .timeout] ∧ ∀ b, b ≠ a → u.motion.act b = s.motion.act b) ∧
      ((s.motion.lane l).policy = .stopAll →
        Yields (.travelTimerExpiry a) s u
          [actFaultNotice a .timeout,
            { cls := .laneFault, source := some l.val, detail := LaneFault.moveFailed.code, tag := some h.tag }] ∧
        (∀ b, b ≠ a → (b, MoveResult.pending) ∈ h.results → (s.motion.act b).moving = true →
          u.motion.act b = stoppedBy (s.env.view b) (s.motion.act b).cfg.stopAction (s.motion.act b)) ∧
        (∀ mv ∈ h.moves, (u.motion.act mv.act).owner ≠ .lane l) ∧
        ∀ b, b ≠ a → (∀ p ∈ h.results, p.1 ≠ b) → (∀ mv ∈ h.moves, mv.act ≠ b) → u.motion.act b = s.motion.act b)

/-- DELAY_TIMER_EXPIRY: the head of a WAITING lane in RUN joins the tail of the start queue with its start limit timer, and
the end of that event, at which it starts if it may (R75), is left open. STEP_START is that end, and every other command but a
reset finds the event ended; a LANE_PAUSE, a LANE_FLUSH or a STEP_CANCEL that takes the head out falls together with the expiry
and finds it queued, as the last paragraph of R44 says (the model's way of keeping both rules, log 24). START_LIMIT_EXPIRY: the entry leaves, the head is FAILED, the lane is FAULTED with START_LIMIT and without a failed
actuator, LANE_FAULT is raised; no actuator, mark or pool entry changes. -/
def Obligations.DelayAndStartLimitExpiries : Prop :=
  (∀ s l h rest, Operating s → s.modes.mode = .run → (s.motion.lane l).state = .waiting →
     (s.motion.lane l).steps = h :: rest → (s.motion.lane l).delayTimer = some 0 →
     exec (.delayTimerExpiry l) s = .next
       { s with
         openEnd := some l
         motion := { s.motion.setLane l (queuedLane (s.motion.lane l)) with
           queue := s.motion.queue ++ [{ lane := l, limit := Timer.start h.startLimit }] } }) ∧
  (∀ s l, s.modes.inReset = none → s.openEnd = some l →
     ∃ w, After { s with openEnd := none } [] w ∧ exec .stepStart s = .next w ∧
       ∀ c, c ≠ .stepStart → c ≠ .powerOn → c ≠ .resetAsserted → ¬ TakesHeadOut s l c → exec c s = exec c w) ∧
  (∀ s l c, s.modes.inReset = none → s.openEnd = some l → TakesHeadOut s l c →
     exec c s = exec c { s with openEnd := none }) ∧
  (∀ s l h rest, Operating s → { lane := l, limit := some 0 } ∈ s.motion.queue → (s.motion.lane l).steps = h :: rest →
     Yields (.startLimitExpiry l) s
       { s with motion :=
         { s.motion.setLane l { s.motion.lane l with
             state := .faulted, fault := some .startLimit, failedAct := none, pausePending := false, delayTimer := none
             steps := { h with run := .failed } :: rest } with
           queue := s.motion.queue.filter fun q => q.lane ≠ l } }
       [{ cls := .laneFault, source := some l.val, detail := LaneFault.startLimit.code, tag := some h.tag }])

/-- STEP_START: the one queued step, of one move that must run, starts: its entry leaves, its mark is consumed, its lane is
RUNNING with the move PENDING and the start time set, and its actuator travels, owned by the lane. A step of any moves: each
starts as R9 to R13 say, through GAP, into TRAVEL, done at once or faulted, and then the lane acts on the results: it runs
on, fails by its policy, or completes at once, its next head evaluated but not started in this event (R46, R77). That a
conflict at entry to TRAVEL is met with the target coil already energised is the model's choice (log 11), and so is the
arbiter's turn at the end of the event, STEP_START itself doing nothing (log 3). Where the tick's own event is outstanding,
that is the event the start belongs to (log 22); with no entry that may start, nothing happens. -/
def Obligations.StepStartRunsTheHead : Prop :=
  (∀ s l limit h rest a e, Operating s → s.tickOwed = false → s.modes.mode = .run →
    s.motion.queue = [{ lane := l, limit := limit }] →
    (s.motion.lane l).steps = h :: rest → h.moves = [{ act := a, target := e.asMove }] →
    CondMet s.motion s.env h.cond → (∀ g ∈ (s.motion.act a).cfg.guards, GuardMet s.motion g) →
    (s.motion.act a).managed = true → (s.motion.act a).owner = .none → (s.motion.act a).state = .rest →
    s.latches.get (bankOf a) = false →
    ¬ ((s.motion.act a).position = e.position ∧ (s.motion.act a).supervised = true) →
    (s.motion.act a).lineA = false → (s.motion.act a).lineB = false → (s.motion.act a).pulse = none →
    ¬ conflicting (s.env.view a) (s.motion.act a) → ¬ sensed (s.env.view a) e (s.motion.act a) →
    ∃ t, exec .stepStart s = .next t ∧ t.motion.queue = [] ∧
      t.motion.act a = { travelling s.time e (s.motion.act a) with owner := .lane l, supervised := false } ∧
      (∀ b, b ≠ a → t.motion.act b = s.motion.act b) ∧
      t.motion.lane l = { s.motion.lane l with
        state := .running, delayTimer := none
        steps := { h with run := .running, startTime := some s.time, firstFailed := none,
                          results := [(a, MoveResult.pending)] } :: rest } ∧
      (∀ j, j ≠ l → t.motion.lane j = s.motion.lane j) ∧
      (∀ k, t.motion.mark k = (s.motion.mark k && decide (h.cond ≠ .onMark k))) ∧
      t.motion.poolFree = s.motion.poolFree ∧ t.notices.waiting = s.notices.waiting) ∧
  (∀ s l limit h rest, Operating s → s.tickOwed = false → s.modes.mode = .run →
    s.motion.queue = [{ lane := l, limit := limit }] →
    (s.motion.lane l).steps = h :: rest → h.moves ≠ [] → (h.moves.map (·.act)).Nodup → CondMet s.motion s.env h.cond →
    (∀ mv ∈ h.moves, (s.motion.act mv.act).managed = true ∧ (s.motion.act mv.act).owner = .none ∧
      (s.motion.act mv.act).state = .rest ∧ ∀ g ∈ (s.motion.act mv.act).cfg.guards, GuardMet s.motion g) →
    ∃ (t : State) (out : ActIx → Actuator) (result : ActIx → MoveResult), exec .stepStart s = .next t ∧ After s [] t ∧
      (∀ mv ∈ h.moves,
        MoveBegins (s.env.view mv.act) (.lane l) mv.target (s.motion.act mv.act) (out mv.act) (result mv.act)) ∧
      (∀ mv ∈ h.moves, ∀ code, result mv.act = .failed → (out mv.act).fault = some code →
        actFaultNotice mv.act code ∈ (endOf s []).raised) ∧
      (∀ b, (∀ mv ∈ h.moves, mv.act ≠ b) → t.motion.act b = s.motion.act b) ∧
      (∀ j, j ≠ l → t.motion.lane j = s.motion.lane j) ∧
      ∀ begun g, begun = { s.motion.lane l with state := .running, delayTimer := none } →
        g = { h with
          run := .running, startTime := some s.time, results := h.moves.map fun mv => (mv.act, result mv.act)
          firstFailed := (h.moves.find? fun mv => result mv.act == .failed).map (·.act) } →
        ((∀ mv ∈ h.moves, result mv.act ≠ .failed) → (∃ mv ∈ h.moves, result mv.act = .pending) →
          t.motion.lane l = { begun with steps := g :: rest } ∧ (∀ mv ∈ h.moves, t.motion.act mv.act = out mv.act) ∧
            t.motion.queue = [] ∧ t.motion.poolFree = s.motion.poolFree ∧
            ∀ k, t.motion.mark k = (s.motion.mark k && decide (h.cond ≠ .onMark k))) ∧
        ((∃ mv ∈ h.moves, result mv.act = .failed) →
          t.motion.lane l = laneWithFailure g rest begun ∧ t.motion.queue = [] ∧
            t.motion.poolFree = s.motion.poolFree ∧
            (∀ k, t.motion.mark k = (s.motion.mark k && decide (h.cond ≠ .onMark k))) ∧
            (∀ mv ∈ h.moves, result mv.act = .failed → t.motion.act mv.act = out mv.act) ∧
            (∀ mv ∈ h.moves, result mv.act = .pending → t.motion.act mv.act =
              match (s.motion.lane l).policy with
              | .finishOthers => out mv.act
              | .stopAll => stoppedBy (s.env.view mv.act) (out mv.act).cfg.stopAction (out mv.act)) ∧
            ((t.motion.lane l).state = .faulted →
              { cls := .laneFault, source := some l.val, detail := LaneFault.moveFailed.code, tag := some h.tag } ∈
                (endOf s []).raised ∧
              ∀ mv ∈ h.moves, result mv.act = .done → t.motion.act mv.act = { out mv.act with owner := .none })) ∧
        ((∀ mv ∈ h.moves, result mv.act = .done) →
          t.motion.lane l = completedLane .run h rest begun ∧
            (∀ mv ∈ h.moves, t.motion.act mv.act = { out mv.act with owner := .none }) ∧
            t.motion.poolFree = s.motion.poolFree + (if h.recirculate then 0 else 1) ∧
            (∀ k, t.motion.mark k =
              ((s.motion.mark k && decide (h.cond ≠ .onMark k)) || decide (h.mark = some k))) ∧
            (h.report = true → { cls := .stepDone, source := some l.val, detail := 0, tag := some h.tag } ∈
              (endOf s []).raised) ∧
            ((t.motion.lane l).state ≠ .queued → t.motion.queue = []) ∧
            ∀ f fs, (t.motion.lane l).state = .queued → (t.motion.lane l).steps = f :: fs →
              t.motion.queue = [{ lane := l, limit := Timer.start f.startLimit }])) ∧
  (∀ s pre q post, Operating s → s.tickOwed = true → s.modes.mode = .run → s.motion.queue = pre ++ q :: post →
    MayStart s.env s.event pre q → ∃ u, Yields .stepStart s u [] ∧ TickTaken s u) ∧
  ∀ s, s.openEnd = none →
    s.modes.mode ≠ .run ∨ (∀ pre q post, s.motion.queue = pre ++ q :: post → ¬ MayStart s.env s.event pre q) →
    exec .stepStart s = .next s

/-- The entry the arbiter takes next is the oldest one that may start. The arbiter starts steps in RUN alone. Wherever
the arbiter has its turn in RUN, which is the end of every event but that of a refused request (the model's choice, log 3), no
entry that may start is left waiting unless its lane has started a step in that event. -/
def Obligations.TheOldestReadyStepStartsAndNoneIsLeft : Prop :=
  (∀ v e l, Event.findReady v e [] e.m.queue = some l ↔
     ∃ pre q post, e.m.queue = pre ++ q :: post ∧ q.lane = l ∧ MayStart v e pre q ∧
       ∀ pre' q' post', pre = pre' ++ q' :: post' → ¬ MayStart v e pre' q') ∧
  ((∀ v e, v.mode ≠ .run → Event.arbitrate v e = e) ∧
     (∀ v e, e.m.queue = [] → Event.arbitrate v e = e) ∧
     ∀ v e pre q post, v.mode = .run → e.started = [] →
       (Event.arbitrate v e).m.queue = pre ++ q :: post → ¬ MayStart v (Event.arbitrate v e) pre q)

/-- The arbiter leaves alone every actuator that has an owner and every lane without an entry, and starts no lane twice in
one event. -/
def Obligations.TheArbiterLeavesOthersAlone : Prop :=
  (∀ v e a, (e.m.act a).owner ≠ .none → (Event.arbitrate v e).m.act a = e.m.act a) ∧
    (∀ v e l, (∀ q ∈ e.m.queue, q.lane ≠ l) → (Event.arbitrate v e).m.lane l = e.m.lane l) ∧
    ∀ v e, e.started = [] → (Event.arbitrate v e).started.Nodup

/-! ## Inputs, halt and banks -/

/-- A change of a pin: the level is taken; a level that differs, after inversion, from the filtered one starts the filter
afresh, one that agrees cancels it, and filter time 0 takes it at once and hands the change on, to the watch and to the
actuator that uses the sensor; HALT# and DRVFLTk# have fixed filters of 2 ms and
1 ms. -/
def Obligations.PinChangesStartTheFilters : Prop :=
  (∀ s i level, Operating s → (s.inputs.get i).raw = level → exec (.inputRawChange i level) s = .next s) ∧
    (∀ s i level, Operating s → (s.inputs.get i).raw ≠ level →
      ((level != (s.inputs.get i).invert) = (s.inputs.get i).filtered →
        Yields (.inputRawChange i level) s
          { s with inputs := setVec s.inputs i { s.inputs.get i with raw := level, timer := none } } []) ∧
      ((level != (s.inputs.get i).invert) ≠ (s.inputs.get i).filtered → (s.inputs.get i).filterTime ≠ 0 →
        Yields (.inputRawChange i level) s
          { s with inputs := (setVec s.inputs i
            { s.inputs.get i with raw := level, timer := some (s.inputs.get i).filterTime.toNat }) } []) ∧
      ((level != (s.inputs.get i).invert) ≠ (s.inputs.get i).filtered → (s.inputs.get i).filterTime = 0 →
        ∃ u raised, Yields (.inputRawChange i level) s u raised ∧
          u = { s with
            motion := u.motion
            inputs := (setVec s.inputs i { s.inputs.get i with
              raw := level, filtered := level != (s.inputs.get i).invert, timer := none }) } ∧
          HandedOn s u i raised)) ∧
    (∀ s level, Operating s →
      (s.haltIn.pin = level → exec (.haltPinChange level) s = .next s) ∧
      (s.haltIn.pin ≠ level →
        Yields (.haltPinChange level) s
          { s with haltIn := { s.haltIn with
              pin := level, timer := if level = s.haltIn.active then some 2 else none } } [])) ∧
    ∀ s k level, Operating s →
      ((s.drvflt.get k).pin = level → exec (.drvfltPinChange k level) s = .next s) ∧
      ((s.drvflt.get k).pin ≠ level →
        Yields (.drvfltPinChange k level) s
          { s with drvflt := setVec s.drvflt k { s.drvflt.get k with
              pin := level, timer := if level = (s.drvflt.get k).active then some 1 else none } } [])

/-- STABILITY_TIMER_EXPIRY: the filtered level takes the level after inversion, and the change is handed on: a watched edge
raises WATCH with the new level as its detail, the actuator takes the change of a sensor it uses, and a level no actuator reads
changes nothing else. -/
def Obligations.StabilityExpiryTakesTheLevel : Prop :=
  ∀ s i, Operating s → (s.inputs.get i).timer = some 0 →
    (((s.inputs.get i).raw != (s.inputs.get i).invert) = (s.inputs.get i).filtered →
      Yields (.stabilityTimerExpiry i) s
        { s with inputs := setVec s.inputs i { s.inputs.get i with timer := none } } []) ∧
    (((s.inputs.get i).raw != (s.inputs.get i).invert) ≠ (s.inputs.get i).filtered →
      ∃ u raised, Yields (.stabilityTimerExpiry i) s u raised ∧
        u = { s with
          motion := u.motion
          inputs := setVec s.inputs i { s.inputs.get i with
            filtered := (s.inputs.get i).raw != (s.inputs.get i).invert, timer := none } } ∧
        HandedOn s u i raised)

/-- A change of a used sensor, taken at its stability expiry, moves its actuator as its state says: arrival in TRAVEL, by way
of SETTLE or with settle time 0 at once, the drop in SETTLE, the conflict check in motion, rest tracking, and in RUN rest
supervision: DRIFT when the held sensor drops, CONFLICT when both are active. Any other change in motion (the departure sensor,
the target sensor in GAP) changes nothing, and so does any other change at supervised rest. -/
def Obligations.SensorChangesMoveTheActuator : Prop :=
  ∀ s i, Operating s → (s.inputs.get i).timer = some 0 →
    ((s.inputs.get i).raw != (s.inputs.get i).invert) ≠ (s.inputs.get i).filtered →
    (s.motion.act (inputAct i)).cfg.sensing.has (inputEnd i) = true →
    ∃ u raised, Yields (.stabilityTimerExpiry i) s u raised ∧
      u = { s with
        motion := u.motion
        inputs := setVec s.inputs i { s.inputs.get i with
          filtered := (s.inputs.get i).raw != (s.inputs.get i).invert, timer := none } } ∧
      SensorTaken s u i raised

/-- HALT_FILTER_EXPIRY with the pin low halts the part with cause HALT_LINE and a HALT notice, every managed actuator that is
not FAULTED taking its safe action (HOLD, RELEASE, or a safe move toward X or R); in HALTED it raises the notice alone; with
the pin high the filtered level becomes inactive and nothing else changes. LINK_WATCH_EXPIRY stops the watch and orders a
link loss: outside HALTED the part halts with cause LINK_LOST and a LINK notice, in HALTED the notice alone is raised; the
setting is kept. That a safe move's conflict at entry to TRAVEL is met with the target coil already energised is the model's
choice (log 11). -/
def Obligations.HaltAndLinkLossHaltThePart : Prop :=
  (∀ s, Operating s → s.haltIn.timer = some 0 →
     (s.haltIn.pin = false → s.haltIn.active = false → s.modes.mode ≠ .halted →
       ∃ u raised, Yields .haltFilterExpiry s u raised ∧ Halts s u raised .haltLine .halt ∧
         u = { s with
           motion := u.motion, modes := u.modes, haltIn := { pin := false, active := true, timer := none } }) ∧
     (s.haltIn.pin = false → s.haltIn.active = false → s.modes.mode = .halted →
       Yields .haltFilterExpiry s { s with haltIn := { pin := false, active := true, timer := none } }
         [{ cls := .halt, source := none, detail := 0, tag := none }]) ∧
     (s.haltIn.pin = true →
       Yields .haltFilterExpiry s { s with haltIn := { pin := true, active := false, timer := none } } [])) ∧
  (∀ s, Operating s → s.link.watchTimer = some 0 →
     (s.modes.mode ≠ .halted →
       ∃ u raised, Yields .linkWatchExpiry s u raised ∧ Halts s u raised .linkLost .link ∧
         u = { s with motion := u.motion, modes := u.modes, link := { s.link with watchTimer := none } }) ∧
     (s.modes.mode = .halted →
       Yields .linkWatchExpiry s { s with link := { s.link with watchTimer := none } }
         [{ cls := .link, source := none, detail := 0, tag := none }]))

/-- DRVFLT_FILTER_EXPIRY with the pin low sets the bank's latch: no managed actuator of the bank is left moving or owned,
the owned and moving ones fault DRIVE where no lane runs, the others at rest lose coils, position and supervision; a RUNNING
lane with one actuator in the bank takes its failure by its policy; one with two records the lower as its first failure, and
the higher faults too where FINISH_OTHERS runs on, else it is stopped or released and then rests with coils off, its result
STOPPED or DONE; with the latch set already DRIVE alone is raised; with the
pin high the filtered level alone changes. -/
def Obligations.DriverFaultSetsTheLatch : Prop :=
  ∀ s k, Operating s → (s.drvflt.get k).timer = some 0 →
    ((s.drvflt.get k).pin = false → (s.drvflt.get k).active = false → s.latches.get k = false →
      ∃ u raised, Yields (.drvfltFilterExpiry k) s u raised ∧
        u = { s with
          motion := u.motion
          latches := setVec s.latches k true
          drvflt := setVec s.drvflt k { pin := false, active := true, timer := none } } ∧
        { cls := .drive, source := some k.val, detail := 0, tag := none } ∈ raised ∧
        (∀ a, bankOf a = k → (s.motion.act a).managed = true → (s.motion.act a).state ≠ .off →
          (u.motion.act a).moving = false ∧ (u.motion.act a).owner = .none ∨
            (s.motion.act a).state = .faulted) ∧
        (∀ a, bankOf a = k → (s.motion.act a).managed = true → (s.motion.act a).state = .rest →
          (s.motion.act a).owner = .none →
          (u.motion.act a).state = .rest ∧ (u.motion.act a).position = .u ∧ (u.motion.act a).supervised = false ∧
            (u.motion.act a).lineA = false ∧ ((s.motion.act a).cfg.kind.double = true → (u.motion.act a).lineB = false) ∧
            (u.motion.act a).pulse = none) ∧
        ((∀ l, (s.motion.lane l).state ≠ .running) →
          ∀ a, bankOf a = k → (s.motion.act a).managed = true → (s.motion.act a).state ≠ .off →
            (s.motion.act a).state ≠ .faulted → (s.motion.act a).moving = true ∨ (s.motion.act a).owner ≠ .none →
            FaultedWith s.time .drive (s.motion.act a) (u.motion.act a) ∧ actFaultNotice a .drive ∈ raised) ∧
        (∀ l h rest a, (s.motion.lane l).state = .running → (s.motion.lane l).steps = h :: rest →
          bankOf a = k → (s.motion.act a).managed = true → (s.motion.act a).state ≠ .off →
          (s.motion.act a).state ≠ .faulted → (s.motion.act a).owner = .lane l → (∃ r, (a, r) ∈ h.results) →
          (∀ b, b ≠ a → bankOf b = k → (s.motion.act b).owner ≠ .lane l) →
          (∀ j g gs, j ≠ l → (s.motion.lane j).state = .running → (s.motion.lane j).steps = g :: gs →
            (∀ p ∈ g.results, p.1 ≠ a) ∧ ∀ mv ∈ g.moves, mv.act ≠ a) →
          FaultedWith s.time .drive (s.motion.act a) (u.motion.act a) ∧ actFaultNotice a .drive ∈ raised ∧
            u.motion.lane l = laneWithFailure (failedAt a h) rest (s.motion.lane l) ∧
            ((u.motion.lane l).state = .faulted →
              { cls := .laneFault, source := some l.val, detail := LaneFault.moveFailed.code, tag := some h.tag } ∈
                raised)) ∧
        (∀ l h rest a b, (s.motion.lane l).state = .running → (s.motion.lane l).steps = h :: rest → a < b →
          (∀ c, c = a ∨ c = b → bankOf c = k ∧ (s.motion.act c).managed = true ∧
            ((s.motion.act c).state = .rest ∨ (s.motion.act c).moving = true) ∧ (s.motion.act c).owner = .lane l ∧
            (∃ r, (c, r) ∈ h.results) ∧ (∃ mv ∈ h.moves, mv.act = c)) →
          ((s.motion.act b).moving = true ↔ (b, MoveResult.pending) ∈ h.results) →
          (∀ c, c ≠ a → c ≠ b → bankOf c = k → (s.motion.act c).owner ≠ .lane l) →
          (∀ j g gs, j ≠ l → (s.motion.lane j).state = .running → (s.motion.lane j).steps = g :: gs →
            (∀ p ∈ g.results, p.1 ≠ a ∧ p.1 ≠ b) ∧ ∀ mv ∈ g.moves, mv.act ≠ a ∧ mv.act ≠ b) →
          FaultedWith s.time .drive (s.motion.act a) (u.motion.act a) ∧ actFaultNotice a .drive ∈ raised ∧
            ((u.motion.lane l).state = .faulted →
              { cls := .laneFault, source := some l.val, detail := LaneFault.moveFailed.code, tag := some h.tag } ∈
                raised) ∧
            ((s.motion.lane l).policy = .finishOthers ∧ (∃ p ∈ (failedAt a h).results, p.2 = .pending) →
              FaultedWith s.time .drive (s.motion.act b) (u.motion.act b) ∧ actFaultNotice b .drive ∈ raised ∧
                u.motion.lane l = laneWithFailure (failedAt b (failedAt a h)) rest (s.motion.lane l)) ∧
            (¬ ((s.motion.lane l).policy = .finishOthers ∧ ∃ p ∈ (failedAt a h).results, p.2 = .pending) →
              u.motion.lane l = laneWithFailure (failedAt a h) rest (s.motion.lane l) ∧
                (u.motion.act b).state = .rest ∧ (u.motion.act b).owner = .none ∧ (u.motion.act b).position = .u ∧
                (u.motion.act b).supervised = false ∧ (u.motion.act b).lineA = false ∧
                ((s.motion.act b).cfg.kind.double = true → (u.motion.act b).lineB = false) ∧
                (u.motion.act b).pulse = none)) ∧
        (∀ a, bankOf a = k → (s.motion.act a).state = .off ∨ (s.motion.act a).state = .faulted →
          (s.motion.act a).owner = .none → u.motion.act a = s.motion.act a)) ∧
    ((s.drvflt.get k).pin = false → (s.drvflt.get k).active = false → s.latches.get k = true →
      Yields (.drvfltFilterExpiry k) s
        { s with drvflt := setVec s.drvflt k { pin := false, active := true, timer := none } }
        [{ cls := .drive, source := some k.val, detail := 0, tag := none }]) ∧
    ((s.drvflt.get k).pin = true →
      Yields (.drvfltFilterExpiry k) s
        { s with drvflt := setVec s.drvflt k { pin := true, active := false, timer := none } } [])

/-! ## The link -/

/-- RX_BYTE moves the receiver through its states, discards what R156 says, and INTER_BYTE_GAP_EXPIRY discards the
partial frame; a complete frame with a bad CRC is counted, or not while a restart is pending. The CRC register takes a
byte into its high eight bits and is shifted eight times with 1021h; the CRC of the nine bytes "123456789" is 29B1h. -/
def Obligations.TheReceiverAndItsCrc : Prop :=
  (∀ s b, Operating s →
     (s.link.rx.state = .hunt → b = 0xC5 →
       Yields (.rxByte b false) s
         (withRx s { Receiver.hunt with state := .len, crc := 0xFFFF, gapTimer := some 2 }) []) ∧
     (s.link.rx.state = .hunt → b ≠ 0xC5 → Yields (.rxByte b false) s s []) ∧
     (s.link.rx.state = .len → b.toNat ≤ 120 →
       Yields (.rxByte b false) s
         (withRx s { s.link.rx with state := .seq, len := b, crc := crcByte s.link.rx.crc b, gapTimer := some 2 }) []) ∧
     (s.link.rx.state = .len → 120 < b.toNat → Yields (.rxByte b false) s (discarded s) []) ∧
     (s.link.rx.state = .seq →
       Yields (.rxByte b false) s
         (withRx s { s.link.rx with state := .kind, seq := b, crc := crcByte s.link.rx.crc b, gapTimer := some 2 }) []) ∧
     (s.link.rx.state = .kind →
       Yields (.rxByte b false) s
         (withRx s { s.link.rx with
           state := if s.link.rx.len = 0 then .crc else .payload
           kind := b, crc := crcByte s.link.rx.crc b, gapTimer := some 2 }) []) ∧
     (s.link.rx.state = .payload →
       Yields (.rxByte b false) s
         (withRx s { s.link.rx with
           state := if s.link.rx.len.toNat ≤ s.link.rx.payload.length + 1 then .crc else .payload
           payload := s.link.rx.payload ++ [b], crc := crcByte s.link.rx.crc b, gapTimer := some 2 }) []) ∧
     (s.link.rx.state = .crc → s.link.rx.crcHigh = none →
       Yields (.rxByte b false) s (withRx s { s.link.rx with crcHigh := some b, gapTimer := some 2 }) []) ∧
     (∀ hi, s.link.rx.state = .crc → s.link.rx.crcHigh = some hi → hi ++ b ≠ s.link.rx.crc →
       (s.modes.pendingRestart = none → Yields (.rxByte b false) s (discarded s) []) ∧
       (s.modes.pendingRestart ≠ none → Yields (.rxByte b false) s (withRx s .hunt) [])) ∧
     (s.link.rx.state = .hunt → Yields (.rxByte b true) s s []) ∧
     (s.link.rx.state ≠ .hunt → Yields (.rxByte b true) s (discarded s) []) ∧
     (s.link.rx.gapTimer = some 0 → Yields .interByteGapExpiry s (discarded s) [])) ∧
  ((∀ c b, crcByte c b =
     (fun r : BitVec 16 => if r.getLsbD 15 then (r <<< 1) ^^^ 0x1021#16 else r <<< 1)^[8] (c ^^^ (b ++ 0#8))) ∧
   crcOf [0x31, 0x32, 0x33, 0x34, 0x35, 0x36, 0x37, 0x38, 0x39] = 0x29B1)

/-- The second CRC byte of a frame whose CRC matches hands the frame on as the request of its KIND, and every request command
is the good frame of its code in R172 (log 7). -/
def Obligations.ACompleteFrameIsItsRequest : Prop :=
  (∀ s b hi, s.modes.inReset = none → s.link.rx.state = .crc → s.link.rx.crcHigh = some hi → hi ++ b = s.link.rx.crc →
    exec (.rxByte b false) s = exec (.unknownKind s.link.rx.seq s.link.rx.kind s.link.rx.payload) s) ∧
  ∀ c seq kind p s, spoken c = some (seq, kind, p) → exec c s = exec (.unknownKind seq kind p) s

/-- The link itself answers UNKNOWN_KIND to a code that names no request and BAD_LENGTH to a payload whose length does not fit
its kind, with the status byte alone. -/
def Obligations.TheLinkAnswersUnknownKindAndBadLength : Prop :=
  ∀ c seq kind p s, spoken c = some (seq, kind, p) → Takes s seq →
    (kind ∉ requestKinds → Refuses c s (answering s seq kind .unknownKind [])) ∧
    (kind ∈ requestKinds → lengthFits kind p = false → Refuses c s (answering s seq kind .badLength []))

/-- A taken request is answered by one reply, which is queued and stored with its SEQ; a request whose status is not OK
changes no block but the link. -/
def Obligations.ARefusedRequestChangesTheLinkAlone : Prop :=
  ∀ c seq kind p s, spoken c = some (seq, kind, p) → Takes s seq →
    ∃ st content,
      (st = .ok → ∃ u raised, Yields c s u raised ∧
        u.link.rx = .hunt ∧
        u.link.replies = s.link.replies ++ [replyTo seq kind st content] ∧
        u.link.seqRecord = some { seq := seq, reply := replyTo seq kind st content }) ∧
      (st ≠ .ok → Refuses c s (answering s seq kind st content))

/-- A good frame not taken anew: with the last accepted SEQ the stored reply is queued again; with four replies queued the
frame is dropped and counted; while a restart is pending it is discarded. -/
def Obligations.AGoodFrameNotTakenChangesTheLinkAlone : Prop :=
  ∀ c seq kind p s, spoken c = some (seq, kind, p) → Operating s →
    (∀ r, s.modes.pendingRestart = none → s.link.replies.length < 4 → s.link.seqRecord = some r → r.seq = seq →
      Yields c s { received s with link := { (received s).link with replies := s.link.replies ++ [r.reply] } } []) ∧
    (s.modes.pendingRestart = none → 4 ≤ s.link.replies.length →
      Yields c s { received s with link := { (received s).link with
        overruns := if s.link.overruns = 255 then 255 else s.link.overruns + 1 } } []) ∧
    (s.modes.pendingRestart ≠ none → Yields c s (withRx s .hunt) [])

/-- TX_FRAME_END frees the slot of the frame sent and the next frame begins, the attention frame first, also in RUN with heads
queued and while the reply to RESTART waits behind the frame sent; TX_FRAME_BEGIN begins it on an idle transmitter (log 5);
with nothing to send both change nothing; and at the end of the reply to RESTART the restart takes effect (log 6). Where
attention rises at the end of this very event beside a waiting reply, either frame begins (the model's free value, log 9). -/
def Obligations.TheTransmitterSendsOneFrameAtATime : Prop :=
  ∀ s, Operating s →
    (∀ f rest, s.link.replySending = true → s.link.replies = f :: rest → s.modes.pendingRestart = none ∨ rest ≠ [] →
      (∀ g, s.link.attnSlot ≠ .sending g) →
      ∃ t, exec .txFrameEnd s = .next t ∧
        After { s with link := { s.link with replies := rest, replySending := false } } [] t ∧
        NextBegun { s with link := { s.link with replies := rest, replySending := false } } t) ∧
    (∀ g, s.link.replySending = false → s.link.attnSlot = .sending g →
      ∃ t, exec .txFrameEnd s = .next t ∧ After { s with link := { s.link with attnSlot := .empty } } [] t ∧
        NextBegun { s with link := { s.link with attnSlot := .empty } } t) ∧
    (Silent s.link → s.link.attnSlot = .waiting ∨ s.link.replies ≠ [] →
      ∃ t, exec .txFrameBegin s = .next t ∧ After s [] t ∧ NextBegun s t) ∧
    (Silent s.link → s.link.attnSlot = .empty → s.link.replies = [] → exec .txFrameBegin s = .next s) ∧
    (Silent s.link → exec .txFrameEnd s = .next s) ∧
    (s.link.replySending = true → s.link.replies.length = 1 →
      (s.modes.pendingRestart = some .level0 → exec .txFrameEnd s = exec (.restart0TakesEffect s.straps) s) ∧
      (s.modes.pendingRestart = some .level1 → exec .txFrameEnd s = exec .restart1TakesEffect s))

/-- ATTN# follows the attention condition, and its rise queues an attention frame in an empty attention slot; when one request
event queues a reply and an attention frame on an idle transmitter, the spec gives no order: either has begun, whatever the
free value is (log 9; here FLOOR_SET makes a record eligible). -/
def Obligations.AReplyAndAnAttentionFrameMayBeginInEitherOrder : Prop :=
  (∀ s : State, s.judge = { s with
      notices := { s.notices with attn := s.notices.attention }
      link := { s.link with
        attnSlot := if s.notices.attention = true ∧ s.notices.attn = false ∧ s.link.attnSlot = .empty then .waiting
          else s.link.attnSlot } }) ∧
  ∀ s seq b, Takes s seq → Calm s → Silent s.link → s.link.attnSlot = .empty → s.link.replies = [] →
    s.notices.attn = false → ∀ floor : Fin 8, b = byteOf floor.val →
    NoticeUnit.attention { s.notices with floor := floor } = true →
    ∃ t, exec (.floorSet seq [b]) s = .next t ∧ t.notices.attn = true ∧ t.link.replies.length = 1 ∧
      ((t.link.replySending = true ∧ t.link.attnSlot = .waiting ∧ t.link.attnCounter = s.link.attnCounter) ∨
        (t.link.replySending = false ∧ t.link.attnCounter = s.link.attnCounter + 1 ∧
          t.link.attnSlot = .sending (frameOf s.link.attnCounter 0x7F (attentionBytes t.notices))))

/-! ## Requests of mode control, timebase and link -/

/-- IDENT is answered with the fixed values, and changes nothing. -/
def Obligations.IdentAnswersTheFixedValues : Prop :=
  ∀ s seq, Takes s seq →
    Yields (.ident seq []) s (answering s seq 0x01 .ok [0x6E, 0x01, 16, 4, 64, 32, 8]) []

/-- STATUS is answered with the state of the part, and then clears its three counts and nothing else. -/
def Obligations.StatusReportsAndClearsTheCounts : Prop :=
  ∀ s seq, Takes s seq → ∀ u, u = answering s seq 0x02 .ok
      ([s.modes.mode.code, (s.modes.haltCause.map HaltCause.code).getD 0xFF, s.modes.resetCause.code,
          flagByte s.haltIn.active, levelByte s.latches.toList,
          (s.motion.lane 0).state.code, (s.motion.lane 1).state.code, (s.motion.lane 2).state.code,
          (s.motion.lane 3).state.code,
          byteOf s.motion.poolFree, byteOf s.notices.waiting.length, byteOf s.notices.stack.length, s.notices.lost,
          s.link.rxErrors, s.link.overruns, levelByte s.motion.marks.toList] ++ bytes32 s.time) →
    Yields (.status seq []) s
      { u with
        notices := { s.notices with lost := 0 }
        link := { u.link with rxErrors := 0, overruns := 0 } } []

/-- IO_READ, ACT_READ, LANE_READ and PEEK answer with the layouts of R181 to R185, and change nothing; an index out of range
is BAD_ARG. -/
def Obligations.ReadsAnswerAndChangeNothing : Prop :=
  ∀ s seq, Takes s seq →
    Yields (.ioRead seq []) s (answering s seq 0x19 .ok
      (levelBytes (s.inputs.toList.map (·.raw)) ++ levelBytes (s.inputs.toList.map (·.filtered)) ++
        levelBytes s.commanded ++ levelBytes s.actual ++
        [levelByte s.latches.toList, flagByte s.haltIn.active, levelByte (s.drvflt.toList.map (·.active))])) [] ∧
    (∀ a : ActIx, Yields (.actRead seq [byteOf a.val]) s (answering s seq 0x11 .ok
      ((s.motion.act a).cfg.bytes a ++
        [(s.motion.act a).state.code, (s.motion.act a).position.code, flagByte (s.motion.act a).supervised,
          ((s.motion.act a).target.map End.code).getD 0xFF, (s.motion.act a).owner.code,
          ((s.motion.act a).fault.map ActFault.code).getD 0xFF,
          flagByte (s.motion.act a).lineA, flagByte (s.motion.act a).lineB,
          flagByte (s.inputs.get (xInput a)).filtered, flagByte (s.inputs.get (rInput a)).filtered] ++
        bytes32 (s.time - (s.motion.act a).entryTime))) []) ∧
    (∀ l : LaneIx, (∀ h rest, (s.motion.lane l).steps = h :: rest → h.run ≠ .running) →
      Yields (.laneRead seq [byteOf l.val]) s (answering s seq 0x27 .ok
        ([(s.motion.lane l).state.code, ((s.motion.lane l).fault.map LaneFault.code).getD 0xFF,
            ((s.motion.lane l).failedAct.map fun a => byteOf a.val).getD 0xFF, flagByte (s.motion.lane l).pausePending] ++
          bytes16 (s.motion.lane l).cycleCount ++
          [byteOf (s.motion.lane l).steps.length,
            ((s.motion.lane l).steps.head?.map fun h => h.run.code).getD 0xFF] ++
          (s.motion.lane l).steps.flatMap fun h => bytes16 h.tag)) []) ∧
    (∀ (l : LaneIx) h rest start, (s.motion.lane l).steps = h :: rest → h.run = .running → h.startTime = some start →
      Yields (.laneRead seq [byteOf l.val]) s (answering s seq 0x27 .ok
        ([(s.motion.lane l).state.code, ((s.motion.lane l).fault.map LaneFault.code).getD 0xFF,
            ((s.motion.lane l).failedAct.map fun a => byteOf a.val).getD 0xFF, flagByte (s.motion.lane l).pausePending] ++
          bytes16 (s.motion.lane l).cycleCount ++
          [byteOf (s.motion.lane l).steps.length, h.run.code] ++
          bytes32 start ++ byteOf h.moves.length :: (h.results.flatMap fun p => [byteOf p.1.val, p.2.code]) ++
          (h :: rest).flatMap fun g => bytes16 g.tag)) []) ∧
    (s.notices.waiting = [] →
      Yields (.peek seq []) s (answering s seq 0x32 .ok
        ([0, byteOf s.notices.stack.length, s.notices.lost] ++
          bytes16 ((s.notices.stack.head?.map (·.id)).getD 0))) []) ∧
    (∀ r, s.notices.waiting.find? s.notices.eligible = some r →
      Yields (.peek seq []) s (answering s seq 0x32 .ok
        ([byteOf s.notices.waiting.length, byteOf s.notices.stack.length, s.notices.lost] ++
          bytes16 ((s.notices.stack.head?.map (·.id)).getD 0) ++ 1 :: r.bytes 0)) []) ∧
    (∀ r rest, s.notices.waiting = r :: rest → s.notices.waiting.find? s.notices.eligible = none →
      Yields (.peek seq []) s (answering s seq 0x32 .ok
        ([byteOf s.notices.waiting.length, byteOf s.notices.stack.length, s.notices.lost] ++
          bytes16 ((s.notices.stack.head?.map (·.id)).getD 0) ++ 0 :: r.bytes 0)) []) ∧
    (∀ b : Byte, 15 < b.toNat → Refuses (.actRead seq [b]) s (answering s seq 0x11 .badArg [])) ∧
    (∀ b : Byte, 3 < b.toNat → Refuses (.laneRead seq [b]) s (answering s seq 0x27 .badArg []))

/-- ENTER_RUN: refused WRONG_STATE in RUN, HALT_ACTIVE, BUSY with an owner, NOT_READY with the first bad guard, in this order;
else REST positions are taken afresh (a conflict faults), the mode is RUN, and every WAITING lane evaluates its head, lane 0
first. -/
def Obligations.EnterRunEvaluatesTheLanes : Prop :=
  ∀ s seq, Takes s seq →
    (s.modes.mode = .run → Refuses (.enterRun seq []) s (answering s seq 0x04 .wrongState [])) ∧
    (s.modes.mode ≠ .run → s.haltIn.active = true →
      Refuses (.enterRun seq []) s (answering s seq 0x04 .haltActive [])) ∧
    (s.modes.mode ≠ .run → s.haltIn.active = false → (∃ a, (s.motion.act a).owner ≠ .none) →
      Refuses (.enterRun seq []) s (answering s seq 0x04 .busy [])) ∧
    (∀ a pre g post, s.modes.mode ≠ .run → s.haltIn.active = false → (∀ b, (s.motion.act b).owner = .none) →
      (s.motion.act a).managed = true → (s.motion.act a).cfg.guards = pre ++ g :: post →
      (s.motion.act g.other).managed = false → (∀ k ∈ pre, (s.motion.act k.other).managed = true) →
      (∀ b, b < a → (s.motion.act b).managed = true →
        ∀ k ∈ (s.motion.act b).cfg.guards, (s.motion.act k.other).managed = true) →
      Refuses (.enterRun seq []) s
        (answering s seq 0x04 .notReady [byteOf a.val, byteOf g.other.val])) ∧
    (s.modes.mode ≠ .run → s.haltIn.active = false → (∀ a, (s.motion.act a).owner = .none) →
      (∀ a, (s.motion.act a).managed = true →
        ∀ g ∈ (s.motion.act a).cfg.guards, (s.motion.act g.other).managed = true) →
      ∃ u raised n, Yields (.enterRun seq []) s u raised ∧
        u = { answering s seq 0x04 .ok [byteOf n] with
          motion := u.motion, modes := { s.modes with mode := .run, haltCause := none } } ∧
        n = (allActs.filter fun a => (s.motion.act a).state == .rest && (s.motion.act a).cfg.sensing == .both &&
          (s.inputs.get (xInput a)).filtered && (s.inputs.get (rInput a)).filtered).length ∧
        (∀ a, (s.motion.act a).state = .rest → conflicting (s.env.view a) (s.motion.act a) →
          FaultedWith s.time .conflict (s.motion.act a) (u.motion.act a) ∧ actFaultNotice a .conflict ∈ raised) ∧
        (∀ a, (s.motion.act a).state = .rest → ¬ conflicting (s.env.view a) (s.motion.act a) →
          u.motion.act a = tracked (s.env.view a) (s.motion.act a)) ∧
        (∀ a, (s.motion.act a).state ≠ .rest → u.motion.act a = s.motion.act a) ∧
        (∀ l, (s.motion.lane l).state = .waiting → u.motion.lane l = evaluatedLane (s.motion.lane l)) ∧
        (∀ l, (s.motion.lane l).state ≠ .waiting → u.motion.lane l = s.motion.lane l) ∧
        u.motion.queue = s.motion.queue ++ allLanes.flatMap (fun l =>
          if (s.motion.lane l).state = .waiting then entryOf .run l (s.motion.lane l) else []) ∧
        u.motion.marks = s.motion.marks ∧ u.motion.poolFree = s.motion.poolFree)

/-- ENTER_SETUP: WRONG_STATE in SETUP; from RUN, BUSY with a RUNNING lane or an owner, else the queue is emptied and every
WAITING or QUEUED lane is held; from HALTED, HALT_ACTIVE, BUSY with a safe move, else only the mode changes. -/
def Obligations.EnterSetupHoldsTheLanes : Prop :=
  ∀ s seq, Takes s seq →
    (s.modes.mode = .setup → Refuses (.enterSetup seq []) s (answering s seq 0x03 .wrongState [])) ∧
    (s.modes.mode = .run → ((∃ l, (s.motion.lane l).state = .running) ∨ ∃ a, (s.motion.act a).owner ≠ .none) →
      Refuses (.enterSetup seq []) s (answering s seq 0x03 .busy [])) ∧
    (s.modes.mode = .run → (∀ l, (s.motion.lane l).state ≠ .running) → (∀ a, (s.motion.act a).owner = .none) →
      ∃ u, Yields (.enterSetup seq []) s u [] ∧
        u = { answering s seq 0x03 .ok [] with motion := u.motion, modes := { s.modes with mode := .setup } } ∧
        u.motion.queue = [] ∧ u.motion.acts = s.motion.acts ∧ u.motion.marks = s.motion.marks ∧
        u.motion.poolFree = s.motion.poolFree ∧
        ∀ l, u.motion.lane l =
          if (s.motion.lane l).state = .waiting ∨ (s.motion.lane l).state = .queued
          then heldLane .waiting (s.motion.lane l) else s.motion.lane l) ∧
    (s.modes.mode = .halted → s.haltIn.active = true →
      Refuses (.enterSetup seq []) s (answering s seq 0x03 .haltActive [])) ∧
    (s.modes.mode = .halted → s.haltIn.active = false → (∃ a, (s.motion.act a).owner = .safe) →
      Refuses (.enterSetup seq []) s (answering s seq 0x03 .busy [])) ∧
    (s.modes.mode = .halted → s.haltIn.active = false → (∀ a, (s.motion.act a).owner ≠ .safe) →
      Yields (.enterSetup seq []) s
        { answering s seq 0x03 .ok [] with modes := { s.modes with mode := .setup, haltCause := none } } [])

/-- SET_TIME: WRONG_MODE outside SETUP; else machine time takes the value, every state entry time moves by the same amount,
and every held AT_TIME step is tested against the new count. -/
def Obligations.SetTimeMovesTheClock : Prop :=
  ∀ s seq b3 b2 b1 b0, Takes s seq →
    (s.modes.mode ≠ .setup → Refuses (.setTime seq [b3, b2, b1, b0]) s (answering s seq 0x06 .wrongMode [])) ∧
    (s.modes.mode = .setup → ∀ now : Time, now = b3 ++ b2 ++ b1 ++ b0 →
      ∃ u, Yields (.setTime seq [b3, b2, b1, b0]) s u [] ∧
        u = { answering s seq 0x06 .ok [b3, b2, b1, b0] with time := now, motion := u.motion } ∧
        (∀ a, u.motion.act a = { s.motion.act a with entryTime := (s.motion.act a).entryTime + (now - s.time) }) ∧
        (∀ l, u.motion.lane l = { s.motion.lane l with steps := (s.motion.lane l).steps.map (reachedAt now) }) ∧
        u.motion.queue = s.motion.queue ∧ u.motion.marks = s.motion.marks ∧ u.motion.poolFree = s.motion.poolFree)

/-! ## Requests of the actuator table -/

/-- ACT_CONFIG with a record in range: WRONG_MODE outside SETUP, BUSY for an actuator owned or moving or a kind a held
step forbids, else the record is replaced, both lines go off and the actuator rests at its sensors' reading, or is OFF.
ACT_CONFIG with a field out of its range is refused BAD_ARG, whatever the mode. -/
def Obligations.ActConfigReplacesOrRefuses : Prop :=
  (∀ s seq a c, Takes s seq → ConfigInRange a c →
     (s.modes.mode ≠ .setup → Refuses (.actConfig seq (c.bytes a)) s (answering s seq 0x10 .wrongMode [])) ∧
     (s.modes.mode = .setup →
       ((s.motion.act a).owner ≠ .none ∨ (s.motion.act a).moving = true ∨
         (c.kind.managed = false ∧ ∃ l, ∃ h ∈ (s.motion.lane l).steps, ∃ mv ∈ h.moves, mv.act = a) ∨
         (c.kind = .single ∧ ∃ l, ∃ h ∈ (s.motion.lane l).steps, ∃ mv ∈ h.moves, mv.act = a ∧ mv.target = .release)) →
       Refuses (.actConfig seq (c.bytes a)) s (answering s seq 0x10 .busy [])) ∧
     (s.modes.mode = .setup → (s.motion.act a).owner = .none → (s.motion.act a).moving = false →
       (c.kind.managed = false → ∀ l, ∀ h ∈ (s.motion.lane l).steps, ∀ mv ∈ h.moves, mv.act ≠ a) →
       (c.kind = .single → ∀ l, ∀ h ∈ (s.motion.lane l).steps, ∀ mv ∈ h.moves, ¬ (mv.act = a ∧ mv.target = .release)) →
       ∀ x : Actuator, x = { s.motion.act a with
         cfg := c, target := none, owner := .none, fault := none, entryTime := s.time, lineA := false, lineB := false
         gapTimer := none, travelTimer := none, settleTimer := none, pulse := none } →
       Yields (.actConfig seq (c.bytes a)) s
         { answering s seq 0x10 .ok [] with motion := (s.motion.setAct a
           (if c.kind.managed then tracked (s.env.view a) { x with state := .rest }
           else { x with state := .off, position := .u, supervised := false })) } [])) ∧
  (∀ s seq a k sn t1 t0 s1 s0 g1 g0 p1 p0 fa st sa count guards, Takes s seq →
     guards.length = 2 * (count : Byte).toNat →
     (15 < (a : Byte).toNat ∨ 4 < (k : Byte).toNat ∨ 3 < (sn : Byte).toNat ∨
       (t1 ++ t0 : BitVec 16).toNat < 20 ∨ 30000 < (t1 ++ t0 : BitVec 16).toNat ∨
       2000 < (s1 ++ s0 : BitVec 16).toNat ∨ 500 < (g1 ++ g0 : BitVec 16).toNat ∨
       (p1 ++ p0 : BitVec 16).toNat < 20 ∨ 1000 < (p1 ++ p0 : BitVec 16).toNat ∨
       1 < (fa : Byte).toNat ∨ 1 < (st : Byte).toNat ∨ 3 < (sa : Byte).toNat ∨ 4 < count.toNat ∨
       (∃ g ∈ pairs guards, 15 < g.1.toNat ∨ g.1 = a ∨ 1 < g.2.toNat) ∨ ¬ ((pairs guards).map (·.1)).Nodup) →
     Refuses (.actConfig seq
         (a :: k :: sn :: t1 :: t0 :: s1 :: s0 :: g1 :: g0 :: p1 :: p0 :: fa :: st :: sa :: count :: guards)) s
       (answering s seq 0x10 .badArg []))

/-- JOG is refused BAD_ARG, WRONG_MODE, WRONG_STATE, BUSY or GUARD, in this order of test. An accepted JOG starts its
move with owner JOG: DRIVE under a set latch, RELEASE at once, the holding pattern at the target, GAP with the opposite
coil on, and else TRAVEL, where a conflict faults the move and an active target sensor takes it on. A move that completes in
the event raises JOG_DONE, one that faults ACT_FAULT, one that runs nothing. That a conflict at entry to TRAVEL is met with the
target coil already energised is the model's choice (log 11). -/
def Obligations.JogIsRefusedOrStartsItsMove : Prop :=
  (∀ s seq, Takes s seq →
     (∀ b t f : Byte, 15 < b.toNat ∨ 2 < t.toNat ∨ 1 < f.toNat →
       Refuses (.jog seq [b, t, f]) s (answering s seq 0x12 .badArg [])) ∧
     ∀ (a : ActIx) target force,
       ((s.motion.act a).managed = false ∨ ((s.motion.act a).cfg.kind = .single ∧ target = .release) →
         Refuses (.jog seq [byteOf a.val, targetByte target, flagByte force]) s (answering s seq 0x12 .badArg [])) ∧
       ((s.motion.act a).managed = true → ¬ ((s.motion.act a).cfg.kind = .single ∧ target = .release) →
         (s.modes.mode ≠ .setup →
           Refuses (.jog seq [byteOf a.val, targetByte target, flagByte force]) s (answering s seq 0x12 .wrongMode [])) ∧
         (s.modes.mode = .setup → (s.motion.act a).state = .faulted →
           Refuses (.jog seq [byteOf a.val, targetByte target, flagByte force]) s (answering s seq 0x12 .wrongState [])) ∧
         (s.modes.mode = .setup → (s.motion.act a).state ≠ .faulted →
           ((s.motion.act a).owner ≠ .none ∨ (s.motion.act a).state ≠ .rest) →
           Refuses (.jog seq [byteOf a.val, targetByte target, flagByte force]) s (answering s seq 0x12 .busy [])) ∧
         (s.modes.mode = .setup → (s.motion.act a).owner = .none → (s.motion.act a).state = .rest → force = false →
           (∃ g ∈ (s.motion.act a).cfg.guards, ¬ GuardMet s.motion g) →
           Refuses (.jog seq [byteOf a.val, targetByte target, flagByte force]) s (answering s seq 0x12 .guard [])))) ∧
  (∀ s seq (a : ActIx) force, Takes s seq → s.modes.mode = .setup → (s.motion.act a).managed = true →
     (s.motion.act a).owner = .none → (s.motion.act a).state = .rest →
     (force = true ∨ ∀ g ∈ (s.motion.act a).cfg.guards, GuardMet s.motion g) →
     (∀ target, ¬ ((s.motion.act a).cfg.kind = .single ∧ target = .release) → s.latches.get (bankOf a) = true →
       ∃ u, Yields (.jog seq [byteOf a.val, targetByte target, flagByte force]) s u [actFaultNotice a .drive] ∧
         u = { answering s seq 0x12 .ok [] with motion := (s.motion.setAct a (u.motion.act a)) } ∧
         FaultedWith s.time .drive (s.motion.act a) (u.motion.act a)) ∧
     ((s.motion.act a).cfg.kind ≠ .single → s.latches.get (bankOf a) = false →
       Yields (.jog seq [byteOf a.val, targetByte .release, flagByte force]) s
         { answering s seq 0x12 .ok [] with motion := (s.motion.setAct a
           { s.motion.act a with
             lineA := false, lineB := false, pulse := none, position := .u, supervised := false, target := none
             gapTimer := none, travelTimer := none, settleTimer := none }) }
         [{ cls := .jogDone, source := some a.val, detail := 2, tag := none }]) ∧
     (∀ e : End, s.latches.get (bankOf a) = false → (s.motion.act a).position = e.position →
       (s.motion.act a).supervised = true →
       ∃ u, Yields (.jog seq [byteOf a.val, targetByte e.asMove, flagByte force]) s u
           [{ cls := .jogDone, source := some a.val, detail := e.code, tag := none }] ∧
         u = { answering s seq 0x12 .ok [] with motion := (s.motion.setAct a { s.motion.act a with
           lineA := (u.motion.act a).lineA, lineB := (u.motion.act a).lineB, pulse := (u.motion.act a).pulse }) } ∧
         ((s.motion.act a).cfg.kind = .single →
           (u.motion.act a).lineA = (e == .x) ∧ (u.motion.act a).lineB = (s.motion.act a).lineB) ∧
         ((s.motion.act a).cfg.kind = .doubleHeld →
           (u.motion.act a).lineA = (e == .x) ∧ (u.motion.act a).lineB = (e == .r)) ∧
         ((s.motion.act a).cfg.kind = .doublePulsed →
           (u.motion.act a).lineA = false ∧ (u.motion.act a).lineB = false ∧ (u.motion.act a).pulse = none)) ∧
     (∀ e : End, s.latches.get (bankOf a) = false →
       ¬ ((s.motion.act a).position = e.position ∧ (s.motion.act a).supervised = true) →
       (s.motion.act a).cfg.kind = .doubleHeld → (s.motion.act a).coil e.opposite = true →
       (s.motion.act a).coil e = false → (s.motion.act a).pulse = none →
       ¬ conflicting (s.env.view a) (s.motion.act a) → (s.motion.act a).cfg.crossoverGap ≠ 0 →
       Yields (.jog seq [byteOf a.val, targetByte e.asMove, flagByte force]) s
         { answering s seq 0x12 .ok [] with motion := (s.motion.setAct a
           { s.motion.act a with
             state := .gap, target := some e, owner := .jog, supervised := false, entryTime := s.time
             lineA := false, lineB := false
             gapTimer := some (s.motion.act a).cfg.crossoverGap, travelTimer := none, settleTimer := none }) } []) ∧
     (∀ e : End, s.latches.get (bankOf a) = false →
       ¬ ((s.motion.act a).position = e.position ∧ (s.motion.act a).supervised = true) →
       ((s.motion.act a).cfg.kind = .doubleHeld → (s.motion.act a).coil e.opposite = false) →
       ((s.motion.act a).cfg.kind = .doublePulsed → ∀ p, (s.motion.act a).pulse = some p → p.coil = e) →
       ¬ conflicting (s.env.view a) (s.motion.act a) → ¬ sensed (s.env.view a) e (s.motion.act a) →
       Yields (.jog seq [byteOf a.val, targetByte e.asMove, flagByte force]) s
         { answering s seq 0x12 .ok [] with motion := (s.motion.setAct a
           { travelling s.time e (s.motion.act a) with owner := .jog, supervised := false }) } []) ∧
     (∀ target, ¬ ((s.motion.act a).cfg.kind = .single ∧ target = .release) →
       ∃ u r raised, Yields (.jog seq [byteOf a.val, targetByte target, flagByte force]) s u raised ∧
         u = { answering s seq 0x12 .ok [] with motion := (s.motion.setAct a (u.motion.act a)) } ∧
         MoveBegins (s.env.view a) .jog target (s.motion.act a) (u.motion.act a) r ∧
         (r = .pending → raised = []) ∧
         (r = .done → raised =
           [{ cls := .jogDone, source := some a.val, detail := (u.motion.act a).position.code, tag := none }]) ∧
         (r = .failed → ∃ code, (u.motion.act a).fault = some code ∧ raised = [actFaultNotice a code]) ∧
         r ≠ .stopped))

/-- ACT_CLEAR takes a FAULTED actuator to REST at its sensors' reading, its coils and owner as they were; WRONG_STATE
otherwise, BAD_ARG for no actuator. -/
def Obligations.ActClearReturnsToRest : Prop :=
  ∀ s seq, Takes s seq →
    (∀ b : Byte, 15 < b.toNat → Refuses (.actClear seq [b]) s (answering s seq 0x13 .badArg [])) ∧
    ∀ a : ActIx,
      ((s.motion.act a).state ≠ .faulted →
        Refuses (.actClear seq [byteOf a.val]) s (answering s seq 0x13 .wrongState [])) ∧
      ((s.motion.act a).state = .faulted →
        Yields (.actClear seq [byteOf a.val]) s
          { answering s seq 0x13 .ok [] with motion := (s.motion.setAct a
            (tracked (s.env.view a) { s.motion.act a with fault := none, state := .rest, entryTime := s.time })) } [])

/-! ## Requests of the input and output stages -/

/-- INPUT_CONFIG replaces the three settings and restarts the input's timing against its filtered level, which with filter
time 0 changes at once, the change handed on under the new watch setting; an index, an invert
or a watch value out of range is BAD_ARG. -/
def Obligations.InputConfigRestartsTheTiming : Prop :=
  ∀ s seq, Takes s seq →
    (∀ b time inv w : Byte, 31 < b.toNat ∨ 1 < inv.toNat ∨ 3 < w.toNat →
      Refuses (.inputConfig seq [b, time, inv, w]) s (answering s seq 0x18 .badArg [])) ∧
    ∀ (i : InputIx) (time w : Byte) inv watch, Watch.ofCode w = some watch → ∀ x : Input,
      x = { s.inputs.get i with filterTime := time, invert := inv, watch := watch, timer := none } →
      ((x.raw != inv) = x.filtered →
        Yields (.inputConfig seq [byteOf i.val, time, flagByte inv, w]) s
          { answering s seq 0x18 .ok [] with inputs := setVec s.inputs i x } []) ∧
      ((x.raw != inv) ≠ x.filtered → time ≠ 0 →
        Yields (.inputConfig seq [byteOf i.val, time, flagByte inv, w]) s
          { answering s seq 0x18 .ok [] with inputs := setVec s.inputs i { x with timer := some time.toNat } } []) ∧
      ((x.raw != inv) ≠ x.filtered → time = 0 →
        ∃ u raised, Yields (.inputConfig seq [byteOf i.val, time, flagByte inv, w]) s u raised ∧
          u = { answering s seq 0x18 .ok [] with
            motion := u.motion, inputs := setVec s.inputs i { x with filtered := x.raw != inv } } ∧
          HandedOn s u i raised)

/-- LINES_SET: BAD_ARG with a managed line in the mask, HALT_ACTIVE in HALTED, else every masked line takes its value, no
other line changes, and the reply carries all 32 commanded levels. -/
def Obligations.LinesSetWritesDirectLines : Prop :=
  ∀ s seq m3 m2 m1 m0 v3 v2 v1 v0, Takes s seq → ∀ mask values : BitVec 32,
    mask = m3 ++ m2 ++ m1 ++ m0 → values = v3 ++ v2 ++ v1 ++ v0 →
    ((∃ a : ActIx, (mask.getLsbD (2 * a.val) = true ∧ (s.motion.act a).cfg.kind.managed = true) ∨
        (mask.getLsbD (2 * a.val + 1) = true ∧ (s.motion.act a).cfg.kind.double = true)) →
      Refuses (.linesSet seq [m3, m2, m1, m0, v3, v2, v1, v0]) s (answering s seq 0x1A .badArg [])) ∧
    ((∀ a : ActIx, (mask.getLsbD (2 * a.val) = true → (s.motion.act a).cfg.kind.managed = false) ∧
        (mask.getLsbD (2 * a.val + 1) = true → (s.motion.act a).cfg.kind.double = false)) →
      (s.modes.mode = .halted →
        Refuses (.linesSet seq [m3, m2, m1, m0, v3, v2, v1, v0]) s (answering s seq 0x1A .haltActive [])) ∧
      (s.modes.mode ≠ .halted →
        ∃ u, Yields (.linesSet seq [m3, m2, m1, m0, v3, v2, v1, v0]) s u [] ∧
          u = { answering s seq 0x1A .ok
              (levelBytes (allActs.flatMap fun a => [(u.motion.act a).lineA, (u.motion.act a).lineB])) with
            motion := u.motion } ∧
          (∀ a : ActIx, u.motion.act a = { s.motion.act a with
            lineA := if mask.getLsbD (2 * a.val) then values.getLsbD (2 * a.val) else (s.motion.act a).lineA
            lineB := if mask.getLsbD (2 * a.val + 1) then values.getLsbD (2 * a.val + 1)
              else (s.motion.act a).lineB }) ∧
          u.motion.lanes = s.motion.lanes ∧ u.motion.queue = s.motion.queue ∧ u.motion.marks = s.motion.marks ∧
          u.motion.poolFree = s.motion.poolFree))

/-- BANK_CLEAR: BAD_ARG, WRONG_STATE with the fault line active, BUSY with a faulted coil commanded on under the latch; a clear
latch changes nothing; else the managed actuators of the bank in REST lose their coils and the latch is cleared.  A line
reads actual on only when commanded on, its latch clear and no reset in progress. -/
def Obligations.BankClearReleasesTheLatch : Prop :=
  (∀ (s : State) k b, s.actualLevel k b = true ↔ b = true ∧ s.latches.get k = false ∧ s.modes.inReset = none) ∧
  ∀ s seq, Takes s seq →
    (∀ b : Byte, 3 < b.toNat → Refuses (.bankClear seq [b]) s (answering s seq 0x1B .badArg [])) ∧
    ∀ k : BankIx,
      ((s.drvflt.get k).active = true →
        Refuses (.bankClear seq [byteOf k.val]) s (answering s seq 0x1B .wrongState [])) ∧
      ((s.drvflt.get k).active = false → s.latches.get k = true →
        (∃ a, bankOf a = k ∧ (s.motion.act a).managed = true ∧ (s.motion.act a).state = .faulted ∧
          ((s.motion.act a).lineA = true ∨ ((s.motion.act a).cfg.kind.double = true ∧ (s.motion.act a).lineB = true))) →
        Refuses (.bankClear seq [byteOf k.val]) s (answering s seq 0x1B .busy [])) ∧
      ((s.drvflt.get k).active = false → s.latches.get k = false →
        Yields (.bankClear seq [byteOf k.val]) s (answering s seq 0x1B .ok [levelByte s.latches.toList]) []) ∧
      ((s.drvflt.get k).active = false → s.latches.get k = true →
        (∀ a, bankOf a = k → (s.motion.act a).managed = true → (s.motion.act a).state = .faulted →
          (s.motion.act a).lineA = false ∧ ((s.motion.act a).cfg.kind.double = true → (s.motion.act a).lineB = false)) →
        ∃ u, Yields (.bankClear seq [byteOf k.val]) s u [] ∧
          u = { answering s seq 0x1B .ok [levelByte (setVec s.latches k false).toList] with
            motion := u.motion, latches := setVec s.latches k false } ∧
          (∀ a, bankOf a = k → (s.motion.act a).managed = true → (s.motion.act a).state = .rest →
            u.motion.act a = { s.motion.act a with
              lineA := false, pulse := none
              lineB := if (s.motion.act a).cfg.kind.double then false else (s.motion.act a).lineB }) ∧
          (∀ a, bankOf a ≠ k ∨ (s.motion.act a).managed = false ∨ (s.motion.act a).state ≠ .rest →
            u.motion.act a = s.motion.act a) ∧
          u.motion.lanes = s.motion.lanes ∧ u.motion.queue = s.motion.queue ∧ u.motion.marks = s.motion.marks ∧
          u.motion.poolFree = s.motion.poolFree)

/-! ## Requests of the lane engine and the start arbiter -/

/-- LANE_CONFIG: BAD_ARG, then WRONG_MODE outside SETUP, else the three settings are replaced and the cycle count is 0.
MARK_SET sets or clears its mark, and the reply carries the marks after the starts of the event (R82); an index or an
action out of range is BAD_ARG. -/
def Obligations.LaneConfigAndMarkSetWriteTheirValues : Prop :=
  (∀ s seq c1 c0, Takes s seq →
     (∀ b p n : Byte, 3 < b.toNat ∨ 1 < p.toNat ∨ 1 < n.toNat →
       Refuses (.laneConfig seq [b, p, c1, c0, n]) s (answering s seq 0x20 .badArg [])) ∧
     ∀ (l : LaneIx) (p : Byte) policy notice, FaultPolicy.ofCode p = some policy →
       (s.modes.mode ≠ .setup → Refuses (.laneConfig seq [byteOf l.val, p, c1, c0, flagByte notice]) s
         (answering s seq 0x20 .wrongMode [])) ∧
       (s.modes.mode = .setup → Yields (.laneConfig seq [byteOf l.val, p, c1, c0, flagByte notice]) s
         { answering s seq 0x20 .ok [] with motion := (s.motion.setLane l { s.motion.lane l with
           policy := policy, cycleStop := c1 ++ c0, emptyNotice := notice, cycleCount := 0 }) } [])) ∧
  (∀ s seq, Takes s seq →
     (∀ b x : Byte, 7 < b.toNat ∨ 1 < x.toNat → Refuses (.markSet seq [b, x]) s (answering s seq 0x28 .badArg [])) ∧
     ∀ (k : MarkIx) level, ∃ t, exec (.markSet seq [byteOf k.val, flagByte level]) s = .next t ∧
       After { answering s seq 0x28 .ok [levelByte t.motion.marks.toList] with motion := s.motion.setMark k level } [] t)

/-- STEP_POST of a step within its ranges: LANE_FULL at 32 steps, POOL_FULL with no free entry, else the step is appended
HELD with its reached indicator tested, takes one entry, and is evaluated when it finds its lane EMPTY; the reply carries
both counts. STEP_POST with a field out of its range is refused BAD_ARG. -/
def Obligations.StepPostAppendsOrRefuses : Prop :=
  (∀ s seq (l : LaneIx) t1 t0 code a3 a2 a1 a0 l1 l0 (flags : Byte) mk cond mark moves, Takes s seq →
     CondBytes cond code a3 a2 a1 a0 → MarkByte mark mk → flags.toNat ≤ 7 → MovesTaken s.motion moves →
     ((l1 ++ l0 : BitVec 16).toNat = 0 ∨
       (10 ≤ (l1 ++ l0 : BitVec 16).toNat ∧ (l1 ++ l0 : BitVec 16).toNat ≤ 60000)) →
     ∀ payload, payload = byteOf l.val :: t1 :: t0 :: code :: a3 :: a2 :: a1 :: a0 :: l1 :: l0 :: flags :: mk ::
       byteOf moves.length :: moveBytes moves →
     (32 ≤ (s.motion.lane l).steps.length →
       Refuses (.stepPost seq payload) s (answering s seq 0x21 .laneFull [])) ∧
     ((s.motion.lane l).steps.length < 32 → s.motion.poolFree = 0 →
       Refuses (.stepPost seq payload) s (answering s seq 0x21 .poolFull [])) ∧
     ((s.motion.lane l).steps.length < 32 → s.motion.poolFree ≠ 0 → ∀ h : Step,
       h = reachedAt s.time
         { tag := t1 ++ t0, cond := cond, startLimit := (l1 ++ l0 : BitVec 16).toNat
           report := flags.getLsbD 0, recirculate := flags.getLsbD 1, cycleEnd := flags.getLsbD 2
           mark := mark, moves := moves, run := .held, results := [], startTime := none, firstFailed := none
           reached := false } →
       ∀ ln : Lane, ln = { s.motion.lane l with steps := (s.motion.lane l).steps ++ [h] } →
       ∀ u, u = answering s seq 0x21 .ok
         [byteOf (s.motion.poolFree - 1), byteOf ((s.motion.lane l).steps.length + 1)] →
       ((s.motion.lane l).state ≠ .empty →
         Yields (.stepPost seq payload) s
           { u with motion := { s.motion.setLane l ln with poolFree := s.motion.poolFree - 1 } } []) ∧
       ((s.motion.lane l).state = .empty → (s.motion.lane l).steps = [] →
         Yields (.stepPost seq payload) s
           { u with motion := { s.motion.setLane l (evaluatedIn s.modes.mode ln) with
               poolFree := s.motion.poolFree - 1
               queue := s.motion.queue ++ entryOf s.modes.mode l ln } } []))) ∧
  (∀ s seq l t1 t0 code a3 a2 a1 a0 l1 l0 flags mk count moves, Takes s seq →
     moves.length = 2 * (count : Byte).toNat →
     (3 < (l : Byte).toNat ∨ 4 < (code : Byte).toNat ∨
       (code = 1 ∧ 600000 < (a3 ++ a2 ++ a1 ++ a0 : BitVec 32).toNat) ∨
       (code = 3 ∧ (31 < (a3 : Byte).toNat ∨ 1 < (a2 : Byte).toNat)) ∨ (code = 4 ∧ 7 < (a3 : Byte).toNat) ∨
       (1 ≤ (l1 ++ l0 : BitVec 16).toNat ∧ (l1 ++ l0 : BitVec 16).toNat ≤ 9) ∨
       60000 < (l1 ++ l0 : BitVec 16).toNat ∨ 7 < (flags : Byte).toNat ∨ (7 < (mk : Byte).toNat ∧ mk ≠ 0xFF) ∨
       count = 0 ∨ 8 < count.toNat ∨
       (∃ g ∈ pairs moves, 15 < g.1.toNat ∨ 2 < g.2.toNat) ∨ ¬ ((pairs moves).map (·.1)).Nodup ∨
       ∃ g ∈ pairs moves, ∃ a : ActIx, a.val = g.1.toNat ∧
         ((s.motion.act a).managed = false ∨ ((s.motion.act a).cfg.kind = .single ∧ g.2 = 2))) →
     Refuses (.stepPost seq
         (l :: t1 :: t0 :: code :: a3 :: a2 :: a1 :: a0 :: l1 :: l0 :: flags :: mk :: count :: moves)) s
       (answering s seq 0x21 .badArg []))

/-- STEP_CANCEL removes the first step with the tag that is neither RUNNING nor a FAULTED lane's head; a removed head of
a WAITING or QUEUED lane leaves the queue and the next step is evaluated; no such step is NOT_FOUND. LANE_FLUSH keeps the
head of a RUNNING or FAULTED lane alone, empties every other lane, and returns the entries; a WAITING or QUEUED lane
becomes EMPTY and leaves the queue, a PAUSED one stays PAUSED. -/
def Obligations.StepCancelAndLaneFlushReturnSteps : Prop :=
  (∀ s seq t1 t0, Takes s seq →
     (∀ b : Byte, 3 < b.toNat → Refuses (.stepCancel seq [b, t1, t0]) s (answering s seq 0x22 .badArg [])) ∧
     ∀ (l : LaneIx) (tag : Tag), tag = t1 ++ t0 →
       ((∀ h ∈ (s.motion.lane l).steps, h.tag ≠ tag) →
         Refuses (.stepCancel seq [byteOf l.val, t1, t0]) s (answering s seq 0x22 .notFound [])) ∧
       (∀ h rest, (s.motion.lane l).steps = h :: rest →
         ((s.motion.lane l).state = .running ∨ (s.motion.lane l).state = .faulted) → (∀ g ∈ rest, g.tag ≠ tag) →
         Refuses (.stepCancel seq [byteOf l.val, t1, t0]) s (answering s seq 0x22 .notFound [])) ∧
       (∀ h rest kept, (s.motion.lane l).steps = h :: rest →
         (h.tag ≠ tag ∨ (s.motion.lane l).state = .running ∨ (s.motion.lane l).state = .faulted) →
         CutsTag tag rest kept →
         Yields (.stepCancel seq [byteOf l.val, t1, t0]) s
           { answering s seq 0x22 .ok [byteOf (s.motion.poolFree + 1), byteOf (kept.length + 1)] with
             motion := { s.motion.setLane l { s.motion.lane l with steps := h :: kept } with
               poolFree := s.motion.poolFree + 1 } } []) ∧
       (∀ h rest, (s.motion.lane l).steps = h :: rest → h.tag = tag → (s.motion.lane l).state = .paused →
         Yields (.stepCancel seq [byteOf l.val, t1, t0]) s
           { answering s seq 0x22 .ok [byteOf (s.motion.poolFree + 1), byteOf rest.length] with
             motion := { s.motion.setLane l { s.motion.lane l with steps := rest } with
               poolFree := s.motion.poolFree + 1 } } []) ∧
       (∀ h rest, (s.motion.lane l).steps = h :: rest → h.tag = tag →
         ((s.motion.lane l).state = .waiting ∨ (s.motion.lane l).state = .queued) → ∀ ln : Lane,
         ln = { s.motion.lane l with steps := rest } →
         Yields (.stepCancel seq [byteOf l.val, t1, t0]) s
           { answering s seq 0x22 .ok [byteOf (s.motion.poolFree + 1), byteOf rest.length] with
             motion := { s.motion.setLane l (if rest = [] then { ln with state := .empty, delayTimer := none }
                 else evaluatedIn s.modes.mode ln) with
               poolFree := s.motion.poolFree + 1
               queue := (s.motion.queue.filter fun q => q.lane ≠ l) ++ entryOf s.modes.mode l ln } } [])) ∧
  (∀ s seq, Takes s seq →
     (∀ b : Byte, 3 < b.toNat → Refuses (.laneFlush seq [b]) s (answering s seq 0x23 .badArg [])) ∧
     ∀ (l : LaneIx),
       (∀ h rest, (s.motion.lane l).steps = h :: rest →
         ((s.motion.lane l).state = .running ∨ (s.motion.lane l).state = .faulted) →
         Yields (.laneFlush seq [byteOf l.val]) s
           { answering s seq 0x23 .ok [byteOf (s.motion.poolFree + rest.length), 1] with
             motion := { s.motion.setLane l { s.motion.lane l with steps := [h] } with
               poolFree := s.motion.poolFree + rest.length } } []) ∧
       ((s.motion.lane l).state = .paused →
         Yields (.laneFlush seq [byteOf l.val]) s
           { answering s seq 0x23 .ok [byteOf (s.motion.poolFree + (s.motion.lane l).steps.length), 0] with
             motion := { s.motion.setLane l { s.motion.lane l with steps := [] } with
               poolFree := s.motion.poolFree + (s.motion.lane l).steps.length } } []) ∧
       ((s.motion.lane l).state = .waiting ∨ (s.motion.lane l).state = .queued →
         Yields (.laneFlush seq [byteOf l.val]) s
           { answering s seq 0x23 .ok [byteOf (s.motion.poolFree + (s.motion.lane l).steps.length), 0] with
             motion := { s.motion.setLane l { s.motion.lane l with
                 steps := [], state := .empty, delayTimer := none } with
               poolFree := s.motion.poolFree + (s.motion.lane l).steps.length
               queue := s.motion.queue.filter fun q => q.lane ≠ l } } []) ∧
       ((s.motion.lane l).state = .empty → (s.motion.lane l).steps = [] →
         Yields (.laneFlush seq [byteOf l.val]) s
           (answering s seq 0x23 .ok [byteOf s.motion.poolFree, 0]) []))

/-- LANE_PAUSE and LANE_ABORT: a WAITING or QUEUED lane is PAUSED with its head HELD, out of the queue; a pause makes an
EMPTY lane PAUSED and sets pause pending on a RUNNING one; PAUSED and FAULTED lanes, and an abort of an EMPTY one, are
WRONG_STATE. LANE_ABORT of a RUNNING lane: the step is ABORTED at the head, the lane FAULTED with ABORTED and no failed
actuator, LANE_FAULT raised; no actuator of the step is left owned by the lane, and those of PENDING moves are stopped: at rest
where their sensors see them, their coils as the stop action says; the others keep their coils. -/
def Obligations.LanePauseAndLaneAbort : Prop :=
  (∀ s seq, Takes s seq →
     (∀ b : Byte, 3 < b.toNat → Refuses (.lanePause seq [b]) s (answering s seq 0x24 .badArg []) ∧
       Refuses (.laneAbort seq [b]) s (answering s seq 0x26 .badArg [])) ∧
     ∀ l : LaneIx,
       ((s.motion.lane l).state = .waiting ∨ (s.motion.lane l).state = .queued → ∀ m : Motion,
         m = { s.motion.setLane l (heldLane .paused (s.motion.lane l)) with
           queue := s.motion.queue.filter fun q => q.lane ≠ l } →
         Yields (.lanePause seq [byteOf l.val]) s { answering s seq 0x24 .ok [] with motion := m } [] ∧
         Yields (.laneAbort seq [byteOf l.val]) s { answering s seq 0x26 .ok [] with motion := m } []) ∧
       ((s.motion.lane l).state = .empty →
         Yields (.lanePause seq [byteOf l.val]) s
           { answering s seq 0x24 .ok [] with
             motion := s.motion.setLane l { s.motion.lane l with state := .paused } } [] ∧
         Refuses (.laneAbort seq [byteOf l.val]) s (answering s seq 0x26 .wrongState [])) ∧
       ((s.motion.lane l).state = .running →
         Yields (.lanePause seq [byteOf l.val]) s
           { answering s seq 0x24 .ok [] with
             motion := s.motion.setLane l { s.motion.lane l with pausePending := true } } []) ∧
       ((s.motion.lane l).state = .paused ∨ (s.motion.lane l).state = .faulted →
         Refuses (.lanePause seq [byteOf l.val]) s (answering s seq 0x24 .wrongState []) ∧
         Refuses (.laneAbort seq [byteOf l.val]) s (answering s seq 0x26 .wrongState []))) ∧
  (∀ s seq (l : LaneIx) h rest, Takes s seq → (s.motion.lane l).state = .running → (s.motion.lane l).steps = h :: rest →
     ∃ u, Yields (.laneAbort seq [byteOf l.val]) s u
         [{ cls := .laneFault, source := some l.val, detail := LaneFault.aborted.code, tag := some h.tag }] ∧
       u = { answering s seq 0x26 .ok [] with motion := u.motion } ∧
       u.motion.lane l = { s.motion.lane l with
         state := .faulted, fault := some .aborted, failedAct := none, pausePending := false, delayTimer := none
         steps := { h with run := .aborted
                           results := h.results.map fun p => if p.2 = .pending then (p.1, .stopped) else p } :: rest } ∧
       (∀ j, j ≠ l → u.motion.lane j = s.motion.lane j) ∧
       (∀ mv ∈ h.moves, (u.motion.act mv.act).owner ≠ .lane l) ∧
       (∀ a, (a, MoveResult.pending) ∈ h.results → (s.motion.act a).moving = true →
         (u.motion.act a).state = .rest ∧ (u.motion.act a).owner = .none ∧ (u.motion.act a).target = none ∧
           (u.motion.act a).gapTimer = none ∧ (u.motion.act a).travelTimer = none ∧
           (u.motion.act a).settleTimer = none) ∧
       (∀ a, (a, MoveResult.pending) ∈ h.results → (s.motion.act a).moving = true →
         u.motion.act a = stoppedBy (s.env.view a) (s.motion.act a).cfg.stopAction (s.motion.act a)) ∧
       (∀ mv ∈ h.moves, (mv.act, MoveResult.pending) ∉ h.results →
         u.motion.act mv.act = { s.motion.act mv.act with
           owner := if (s.motion.act mv.act).owner = .lane l then .none else (s.motion.act mv.act).owner }) ∧
       (∀ a, (∀ mv ∈ h.moves, mv.act ≠ a) → (∀ p ∈ h.results, p.1 ≠ a) → u.motion.act a = s.motion.act a) ∧
       u.motion.queue = s.motion.queue ∧ u.motion.marks = s.motion.marks ∧ u.motion.poolFree = s.motion.poolFree)

/-- LANE_RESUME: WRONG_STATE unless PAUSED or FAULTED; PAUSED evaluates its head or becomes EMPTY; RETRY evaluates the
failed head afresh; SKIP removes it and evaluates the next; the reply carries the counts at the end of the event (R187, log 8),
the free count with the entry of another lane's step that completes at once in it (the model's choice, log 26).
LANE_RESUME of a lane that is left without a step makes it EMPTY: a PAUSED lane with none, or SKIP of the only step. -/
def Obligations.LaneResumeEvaluatesOrEmpties : Prop :=
  (∀ s seq, Takes s seq →
     (∀ b o : Byte, 3 < b.toNat ∨ 1 < o.toNat → Refuses (.laneResume seq [b, o]) s (answering s seq 0x25 .badArg [])) ∧
     ∀ (l : LaneIx) skip,
       ((s.motion.lane l).state ≠ .paused → (s.motion.lane l).state ≠ .faulted →
         Refuses (.laneResume seq [byteOf l.val, flagByte skip]) s (answering s seq 0x25 .wrongState [])) ∧
       ∀ ln free,
         ((s.motion.lane l).state = .paused ∧ free = 0 ∧ (s.motion.lane l).steps ≠ [] ∧ ln = s.motion.lane l ∨
           (s.motion.lane l).state = .faulted ∧ skip = false ∧ free = 0 ∧
             (∃ h rest, (s.motion.lane l).steps = h :: rest ∧
               ln = { s.motion.lane l with
                 fault := none, failedAct := none
                 steps := { h with run := .held, results := [], startTime := none, firstFailed := none } :: rest }) ∨
           (s.motion.lane l).state = .faulted ∧ skip = true ∧ free = 1 ∧
             (∀ q ∈ s.motion.queue, q.lane ≠ l) ∧
             (∃ h g rest, (s.motion.lane l).steps = h :: g :: rest ∧
               ln = { s.motion.lane l with fault := none, failedAct := none, steps := g :: rest })) →
         ∃ t, exec (.laneResume seq [byteOf l.val, flagByte skip]) s = .next t ∧
           After { answering s seq 0x25 .ok [byteOf t.motion.poolFree, byteOf (t.motion.lane l).steps.length] with
             motion := { s.motion.setLane l (evaluatedIn s.modes.mode ln) with
               poolFree := s.motion.poolFree + free
               queue := s.motion.queue ++ entryOf s.modes.mode l ln } } [] t) ∧
  (∀ s seq (l : LaneIx) skip, Takes s seq → (∀ q ∈ s.motion.queue, q.lane ≠ l) →
     ((s.motion.lane l).state = .paused → (s.motion.lane l).steps = [] →
       ∃ t, exec (.laneResume seq [byteOf l.val, flagByte skip]) s = .next t ∧
         After { answering s seq 0x25 .ok [byteOf t.motion.poolFree, 0] with
           motion := s.motion.setLane l { s.motion.lane l with state := .empty } } [] t) ∧
     (∀ h, (s.motion.lane l).state = .faulted → skip = true → (s.motion.lane l).steps = [h] →
       ∃ t, exec (.laneResume seq [byteOf l.val, flagByte skip]) s = .next t ∧
         After { answering s seq 0x25 .ok [byteOf t.motion.poolFree, 0] with
           motion := { s.motion.setLane l { s.motion.lane l with
               state := .empty, delayTimer := none, fault := none, failedAct := none, steps := [] } with
             poolFree := s.motion.poolFree + 1 } } [] t))

/-! ## Notices -/

/-- A raised notice is discarded while its class is disabled, merged into the pending record of its class and source, lost
with 32 records pending, and else becomes a record with the first id from the counter on that is not in use, placed behind
every record as urgent as it. -/
def Obligations.ANoticeIsDiscardedMergedLostOrCreated : Prop :=
  ∀ (now : Time) (u : NoticeUnit) (n : Raised) (entry : ClassEntry), entry = u.classes.get n.cls.index →
    (entry.enabled = false → u.take now n = u) ∧
    (∀ pre r post, entry.enabled = true → u.waiting = pre ++ r :: post → r.cls = n.cls → r.source = n.source →
      (∀ q ∈ pre ++ post, ¬ (q.cls = n.cls ∧ q.source = n.source)) →
      u.take now n = { u with waiting := (pre ++ { r with
          count := if r.count = 255 then 255 else r.count + 1, lastTime := now, detail := n.detail
          tags := match r.tags, n.tag with
            | some (first, _), some t => some (first, t)
            | tags, _ => tags } :: post) }) ∧
    (entry.enabled = true → (∀ q ∈ u.waiting, ¬ (q.cls = n.cls ∧ q.source = n.source)) → 32 ≤ u.waiting.length →
      u.take now n = { u with lost := if u.lost = 255 then 255 else u.lost + 1 }) ∧
    (entry.enabled = true → (∀ q ∈ u.waiting, ¬ (q.cls = n.cls ∧ q.source = n.source)) → u.waiting.length < 32 →
      u.stack.length ≤ 8 → u.nextId ≠ 0 →
      ∃ pre post k id, u.waiting = pre ++ post ∧ id = idAfter^[k] u.nextId ∧
        (∀ j, j < k → idAfter^[j] u.nextId ∈ u.idsInUse) ∧ id ∉ u.idsInUse ∧ id ≠ 0 ∧
        (∀ q ∈ pre, q.priority ≤ entry.priority) ∧ (∀ q rest, post = q :: rest → entry.priority < q.priority) ∧
        u.take now n = { u with
          nextId := if id = 0xFFFF then 1 else id + 1
          waiting := (pre ++
            { id := id, cls := n.cls, source := n.source, priority := entry.priority, nest := entry.nest
              detail := n.detail, firstTime := now, lastTime := now, count := 1
              tags := n.tag.map fun t => (t, t) } :: post) })

/-- The notices of one event are taken in the order of R96: the block's own first, then those of actuators by index, then
those of lanes by index with STEP_DONE, CYCLE, LANE_EMPTY and LANE_FAULT of one lane in this order. Across two completions of
one lane in one event, which R96 does not name, this order by class is the model's choice (log 10). -/
def Obligations.TheNoticesOfAnEventAreTakenInOrder : Prop :=
  (∀ (now : Time) (u : NoticeUnit) ns, ∃ order : List Raised, u.takeAll now ns = order.foldl (fun u n => u.take now n) u ∧ order.Perm ns ∧
    order.Pairwise fun a b => a.rank ≤ b.rank) ∧
    ∀ n m : Raised,
      (n.cls ∈ [.halt, .link, .drive, .watch] → m.cls ∉ [.halt, .link, .drive, .watch] → n.rank < m.rank) ∧
      (n.cls ∈ [.actFault, .jogDone] → m.cls ∈ [.stepDone, .cycle, .laneEmpty, .laneFault] →
        n.source.getD 0 < 16 → n.rank < m.rank) ∧
      (n.cls ∈ [.actFault, .jogDone] → m.cls ∈ [.actFault, .jogDone] →
        n.source.getD 0 < m.source.getD 0 → n.rank < m.rank) ∧
      (n.cls ∈ [.stepDone, .cycle, .laneEmpty, .laneFault] → m.cls ∈ [.stepDone, .cycle, .laneEmpty, .laneFault] →
        n.source.getD 0 < m.source.getD 0 → n.rank < m.rank) ∧
      (n.source = m.source →
        (n.cls = .stepDone ∧ m.cls = .cycle ∨ n.cls = .cycle ∧ m.cls = .laneEmpty ∨
          n.cls = .laneEmpty ∧ m.cls = .laneFault) → n.rank < m.rank)

/-! ## Requests of the notice unit -/

/-- NOTICE_CLASS replaces the entry of its class in SETUP and alters no record; outside SETUP, in HALTED too, it is refused
with WRONG_MODE (R89 over R143: the model's choice, log 25). FLOOR_SET replaces the floor in any mode. -/
def Obligations.NoticeClassAndFloorAreReplaced : Prop :=
  ∀ s seq, Takes s seq →
    (∀ c e p n : Byte, 9 < c.toNat ∨ 1 < e.toNat ∨ 7 < p.toNat ∨ 1 < n.toNat →
      Refuses (.noticeClass seq [c, e, p, n]) s (answering s seq 0x30 .badArg [])) ∧
    (∀ (c : Fin 10) e (p : Fin 8) n,
      (s.modes.mode ≠ .setup →
        Refuses (.noticeClass seq [byteOf c.val, flagByte e, byteOf p.val, flagByte n]) s
          (answering s seq 0x30 .wrongMode [])) ∧
      (s.modes.mode = .setup →
        Yields (.noticeClass seq [byteOf c.val, flagByte e, byteOf p.val, flagByte n]) s
          { answering s seq 0x30 .ok [] with notices := { s.notices with
            classes := setVec s.notices.classes c { enabled := e, priority := p, nest := n } } } [])) ∧
    (∀ b : Byte, 7 < b.toNat → Refuses (.floorSet seq [b]) s (answering s seq 0x31 .badArg [])) ∧
    ∀ f : Fin 8, Yields (.floorSet seq [byteOf f.val]) s
      { answering s seq 0x31 .ok [byteOf f.val, byteOf s.notices.waiting.length] with
        notices := { s.notices with floor := f } } []

/-- CLAIM: EMPTY with the pending count when no record is eligible, STACK_FULL with both counts at 8 records, else the first
eligible record in pending order goes to the top of the stack.  It rests on the law of the ids, stated apart. -/
def Obligations.ClaimTakesTheFirstEligibleRecord : Prop :=
  ∀ s seq, Takes s seq → IdLaw s.notices →
    ((∀ r ∈ s.notices.waiting, ¬ Eligible s.notices r) →
      Refuses (.claim seq []) s (answering s seq 0x33 .empty [byteOf s.notices.waiting.length])) ∧
    ∀ pre r post, s.notices.waiting = pre ++ r :: post → Eligible s.notices r →
      (∀ q ∈ pre, ¬ Eligible s.notices q) →
      (8 ≤ s.notices.stack.length →
        Refuses (.claim seq []) s (answering s seq 0x33 .stackFull
          [byteOf s.notices.waiting.length, byteOf s.notices.stack.length])) ∧
      (s.notices.stack.length < 8 →
        Yields (.claim seq []) s
          { answering s seq 0x33 .ok (byteOf (pre ++ post).length :: byteOf (s.notices.stack.length + 1) ::
              r.bytes (s.notices.stack.length + 1)) with
            notices := { s.notices with waiting := pre ++ post, stack := r :: s.notices.stack } } [])

/-- CLOSE removes the stacked record of its id, or the top for id 0; DISMISS removes the pending record of its id; without
such a record the answer is NOT_FOUND, and EMPTY for id 0 on an empty stack.  It rests on the law of the ids, stated
apart. -/
def Obligations.CloseAndDismissRemoveTheirRecord : Prop :=
  ∀ s seq hi lo, Takes s seq → IdLaw s.notices → ∀ id : NoticeId, id = hi ++ lo →
    (id = 0 → s.notices.stack = [] → Refuses (.close seq [hi, lo]) s (answering s seq 0x34 .empty [])) ∧
    (∀ pre r post, s.notices.stack = pre ++ r :: post → (id = 0 ∧ pre = [] ∨ r.id = id) →
      Yields (.close seq [hi, lo]) s
        { answering s seq 0x34 .ok (byteOf (pre ++ post).length ::
            bytes16 (((pre ++ post).head?.map (·.id)).getD 0)) with
          notices := { s.notices with stack := pre ++ post } } []) ∧
    (id ≠ 0 → (∀ r ∈ s.notices.stack, r.id ≠ id) →
      Refuses (.close seq [hi, lo]) s (answering s seq 0x34 .notFound [])) ∧
    (∀ pre r post, s.notices.waiting = pre ++ r :: post → r.id = id →
      Yields (.dismiss seq [hi, lo]) s
        { answering s seq 0x35 .ok [byteOf (pre ++ post).length] with
          notices := { s.notices with waiting := pre ++ post } } []) ∧
    ((∀ r ∈ s.notices.waiting, r.id ≠ id) →
      Refuses (.dismiss seq [hi, lo]) s (answering s seq 0x35 .notFound []))

/-! ## Laws of the part -/

/-- Every step keeps the law of the actuators and that of the lanes, with the law of the start queue (kept by itself): no
two-coil actuator ever has both coils commanded on, an actuator in motion has an owner, one that is FAULTED or OFF has none;
only a lane's head is other than HELD and fits the lane's state, a RUNNING step's results fit its actuators, and outside RUN
no lane is RUNNING and none owns an actuator. -/
def Obligations.TheActuatorsLawIsKept : Prop :=
  ∀ s t, ActuatorsLaw s → LanesLaw s → StartQueueLaw s → step s = .next t → ActuatorsLaw t ∧ LanesLaw t

/-- Every step keeps the law of the step pool: no entry is lost or made, and no lane holds more than 32. -/
def Obligations.ThePoolLawIsKept : Prop := ∀ s t, PoolLaw s → step s = .next t → PoolLaw t

/-- Every step keeps the law of the start queue. -/
def Obligations.TheStartQueueLawIsKept : Prop := ∀ s t, StartQueueLaw s → step s = .next t → StartQueueLaw t

/-- Every step keeps the laws of the notice unit: the pending list, the service stack and the ids. -/
def Obligations.TheNoticesLawIsKept : Prop := ∀ s t, NoticesLaw s → step s = .next t → NoticesLaw t

/-- Every step keeps the law of ATTN#: it is asserted exactly while the attention condition holds. -/
def Obligations.TheAttentionLawIsKept : Prop := ∀ s t, AttentionLaw s → step s = .next t → AttentionLaw t

/-- Every step keeps the law of the transmit queue: at most four replies, and one frame in transmission at a time. -/
def Obligations.TheTransmitLawIsKept : Prop := ∀ s t, TransmitLaw s → step s = .next t → TransmitLaw t
end

