-- ==== Sys2Proof/Laws/State.lean ====
section
/-! SUPPORT. One lemma for each field and each update of the state, so that no proof unfolds a record update. -/

namespace Sys2Proof.Machine

/-! ## Vectors -/

@[simp] theorem setVec_get_self {α : Type} {n : Nat} (v : Vector α n) (i : Fin n) (x : α) : (setVec v i x).get i = x := by
  simp [setVec, Vector.get_eq_getElem]

theorem setVec_get_ne {α : Type} {n : Nat} (v : Vector α n) (i j : Fin n) (x : α) (h : j ≠ i) :
    (setVec v i x).get j = v.get j := by
  have h' : i.val ≠ j.val := fun e => h (Fin.ext e.symm)
  simp [setVec, Vector.get_eq_getElem, h']

theorem setVec_get {α : Type} {n : Nat} (v : Vector α n) (i j : Fin n) (x : α) :
    (setVec v i x).get j = if j = i then x else v.get j := by
  by_cases h : j = i
  · subst h; simp
  · simp [setVec_get_ne _ _ _ _ h, h]

@[simp] theorem setVec_get_id {α : Type} {n : Nat} (v : Vector α n) (i : Fin n) : setVec v i (v.get i) = v := by
  simp [setVec, Vector.get_eq_getElem]

@[simp] theorem setVec_setVec {α : Type} {n : Nat} (v : Vector α n) (i : Fin n) (x y : α) :
    setVec (setVec v i x) i y = setVec v i y := by
  simp [setVec]

@[simp] theorem mapVec_get {α β : Type} {n : Nat} (f : α → β) (v : Vector α n) (i : Fin n) :
    (mapVec f v).get i = f (v.get i) := by
  simp [mapVec, Vector.get_eq_getElem]

@[simp] theorem replicate_get {α : Type} {n : Nat} (x : α) (i : Fin n) : (Vector.replicate n x).get i = x := by
  simp [Vector.get_eq_getElem]

theorem vec_ext {α : Type} {n : Nat} {v w : Vector α n} (h : ∀ i : Fin n, v.get i = w.get i) : v = w := by
  apply Vector.ext
  intro i hi
  simpa [Vector.get_eq_getElem] using h ⟨i, hi⟩

/-! ## Actuators, lanes and marks -/

@[simp] theorem act_setAct_self (m : Motion) (a : ActIx) (x : Actuator) : (m.setAct a x).act a = x := setVec_get_self ..

theorem act_setAct_ne (m : Motion) (a b : ActIx) (x : Actuator) (h : b ≠ a) : (m.setAct a x).act b = m.act b :=
  setVec_get_ne _ _ _ _ h

theorem act_setAct (m : Motion) (a b : ActIx) (x : Actuator) : (m.setAct a x).act b = if b = a then x else m.act b :=
  setVec_get ..

@[simp] theorem lane_setAct (m : Motion) (a : ActIx) (x : Actuator) (l : LaneIx) : (m.setAct a x).lane l = m.lane l := rfl

@[simp] theorem mark_setAct (m : Motion) (a : ActIx) (x : Actuator) (k : MarkIx) : (m.setAct a x).mark k = m.mark k := rfl

@[simp] theorem lanes_setAct (m : Motion) (a : ActIx) (x : Actuator) : (m.setAct a x).lanes = m.lanes := rfl

@[simp] theorem queue_setAct (m : Motion) (a : ActIx) (x : Actuator) : (m.setAct a x).queue = m.queue := rfl

@[simp] theorem poolFree_setAct (m : Motion) (a : ActIx) (x : Actuator) : (m.setAct a x).poolFree = m.poolFree := rfl

@[simp] theorem marks_setAct (m : Motion) (a : ActIx) (x : Actuator) : (m.setAct a x).marks = m.marks := rfl

@[simp] theorem setAct_act (m : Motion) (a : ActIx) : m.setAct a (m.act a) = m := by
  simp [Motion.setAct, Motion.act]

@[simp] theorem setAct_setAct (m : Motion) (a : ActIx) (x y : Actuator) : (m.setAct a x).setAct a y = m.setAct a y := by
  simp [Motion.setAct]

@[simp] theorem lane_setLane_self (m : Motion) (l : LaneIx) (x : Lane) : (m.setLane l x).lane l = x := setVec_get_self ..

theorem lane_setLane_ne (m : Motion) (l j : LaneIx) (x : Lane) (h : j ≠ l) : (m.setLane l x).lane j = m.lane j :=
  setVec_get_ne _ _ _ _ h

theorem lane_setLane (m : Motion) (l j : LaneIx) (x : Lane) : (m.setLane l x).lane j = if j = l then x else m.lane j :=
  setVec_get ..

@[simp] theorem act_setLane (m : Motion) (l : LaneIx) (x : Lane) (a : ActIx) : (m.setLane l x).act a = m.act a := rfl

@[simp] theorem acts_setLane (m : Motion) (l : LaneIx) (x : Lane) : (m.setLane l x).acts = m.acts := rfl

@[simp] theorem mark_setLane (m : Motion) (l : LaneIx) (x : Lane) (k : MarkIx) : (m.setLane l x).mark k = m.mark k := rfl

@[simp] theorem queue_setLane (m : Motion) (l : LaneIx) (x : Lane) : (m.setLane l x).queue = m.queue := rfl

@[simp] theorem poolFree_setLane (m : Motion) (l : LaneIx) (x : Lane) : (m.setLane l x).poolFree = m.poolFree := rfl

@[simp] theorem marks_setLane (m : Motion) (l : LaneIx) (x : Lane) : (m.setLane l x).marks = m.marks := rfl

@[simp] theorem setLane_lane (m : Motion) (l : LaneIx) : m.setLane l (m.lane l) = m := by
  simp [Motion.setLane, Motion.lane]

@[simp] theorem setLane_setLane (m : Motion) (l : LaneIx) (x y : Lane) : (m.setLane l x).setLane l y = m.setLane l y := by
  simp [Motion.setLane]

@[simp] theorem mark_setMark_self (m : Motion) (k : MarkIx) (b : Bool) : (m.setMark k b).mark k = b := setVec_get_self ..

theorem mark_setMark (m : Motion) (k j : MarkIx) (b : Bool) : (m.setMark k b).mark j = if j = k then b else m.mark j :=
  setVec_get ..

@[simp] theorem act_setMark (m : Motion) (k : MarkIx) (b : Bool) (a : ActIx) : (m.setMark k b).act a = m.act a := rfl

@[simp] theorem lane_setMark (m : Motion) (k : MarkIx) (b : Bool) (l : LaneIx) : (m.setMark k b).lane l = m.lane l := rfl

@[simp] theorem acts_setMark (m : Motion) (k : MarkIx) (b : Bool) : (m.setMark k b).acts = m.acts := rfl

@[simp] theorem lanes_setMark (m : Motion) (k : MarkIx) (b : Bool) : (m.setMark k b).lanes = m.lanes := rfl

@[simp] theorem queue_setMark (m : Motion) (k : MarkIx) (b : Bool) : (m.setMark k b).queue = m.queue := rfl

@[simp] theorem poolFree_setMark (m : Motion) (k : MarkIx) (b : Bool) : (m.setMark k b).poolFree = m.poolFree := rfl

theorem mem_allActs (a : ActIx) : a ∈ allActs := List.mem_finRange a

theorem mem_allLanes (l : LaneIx) : l ∈ allLanes := List.mem_finRange l

theorem allActs_nodup : allActs.Nodup := List.nodup_finRange 16

theorem allLanes_nodup : allLanes.Nodup := List.nodup_finRange 4

/-- A list of actuators rewritten one by one, each from itself alone. -/
theorem foldActs_act (f : ActIx → Actuator → Actuator) (xs : List ActIx) (hn : xs.Nodup) (b : ActIx) : ∀ m : Motion,
    (xs.foldl (fun m a => m.setAct a (f a (m.act a))) m).act b = if b ∈ xs then f b (m.act b) else m.act b := by
  induction xs with
  | nil => intro m; simp
  | cons x xs ih =>
    intro m
    simp only [List.nodup_cons] at hn
    rw [List.foldl_cons, ih hn.2]
    by_cases hb : b = x
    · subst hb; simp [hn.1]
    · simp [hb, act_setAct_ne _ _ _ _ hb]

/-- Rewriting actuators touches no other part of the heart. -/
theorem foldActs_frame (f : ActIx → Actuator → Actuator) (xs : List ActIx) : ∀ m : Motion,
    (xs.foldl (fun m a => m.setAct a (f a (m.act a))) m).lanes = m.lanes ∧
    (xs.foldl (fun m a => m.setAct a (f a (m.act a))) m).poolFree = m.poolFree ∧
    (xs.foldl (fun m a => m.setAct a (f a (m.act a))) m).queue = m.queue ∧
    (xs.foldl (fun m a => m.setAct a (f a (m.act a))) m).marks = m.marks := by
  induction xs with
  | nil => intro m; exact ⟨rfl, rfl, rfl, rfl⟩
  | cons x xs ih => intro m; exact ih _

/-- Two hearts are equal when every part of them is. -/
theorem Motion.ext_parts {m n : Motion} (ha : ∀ a, m.act a = n.act a) (hl : ∀ l, m.lane l = n.lane l)
    (hp : m.poolFree = n.poolFree) (hq : m.queue = n.queue) (hm : m.marks = n.marks) : m = n := by
  cases m; cases n
  have h1 := vec_ext ha
  have h2 := vec_ext hl
  simp_all

/-! ## Events -/

@[simp] theorem m_raise (e : Event) (n : Raised) : (e.raise n).m = e.m := rfl

@[simp] theorem raised_raise (e : Event) (n : Raised) : (e.raise n).raised = e.raised ++ [n] := rfl

@[simp] theorem started_raise (e : Event) (n : Raised) : (e.raise n).started = e.started := rfl

@[simp] theorem m_setAct (e : Event) (a : ActIx) (x : Actuator) : (e.setAct a x).m = e.m.setAct a x := rfl

@[simp] theorem raised_setAct (e : Event) (a : ActIx) (x : Actuator) : (e.setAct a x).raised = e.raised := rfl

@[simp] theorem started_setAct (e : Event) (a : ActIx) (x : Actuator) : (e.setAct a x).started = e.started := rfl

@[simp] theorem m_setLane (e : Event) (l : LaneIx) (x : Lane) : (e.setLane l x).m = e.m.setLane l x := rfl

@[simp] theorem raised_setLane (e : Event) (l : LaneIx) (x : Lane) : (e.setLane l x).raised = e.raised := rfl

@[simp] theorem started_setLane (e : Event) (l : LaneIx) (x : Lane) : (e.setLane l x).started = e.started := rfl

@[simp] theorem m_event (s : State) : s.event.m = s.motion := rfl

@[simp] theorem raised_event (s : State) : s.event.raised = [] := rfl

@[simp] theorem started_event (s : State) : s.event.started = [] := rfl

theorem Event.ext_parts {e f : Event} (hm : e.m = f.m) (hr : e.raised = f.raised) (hs : e.started = f.started) : e = f := by
  cases e; cases f; simp_all

/-! ## Lanes -/

@[simp] theorem mapHead_cons (l : Lane) (f : Step → Step) (h : Step) (rest : List Step) (hs : l.steps = h :: rest) :
    l.mapHead f = { l with steps := f h :: rest } := by
  unfold Lane.mapHead; rw [hs]

theorem mapHead_nil (l : Lane) (f : Step → Step) (hs : l.steps = []) : l.mapHead f = l := by
  unfold Lane.mapHead; rw [hs]

@[simp] theorem mapHead_length (l : Lane) (f : Step → Step) : (l.mapHead f).steps.length = l.steps.length := by
  unfold Lane.mapHead; split <;> simp_all

@[simp] theorem mapHead_state (l : Lane) (f : Step → Step) : (l.mapHead f).state = l.state := by
  unfold Lane.mapHead; split <;> rfl

end Sys2Proof.Machine
end

