-- ==== Sys2Proof/Laws/Actuator.lean ====
section
/-! SUPPORT. What the operations of one actuator do, said once: faults, arrivals, stops and completions. -/

namespace Sys2Proof.Machine

open Sys2Proof.Safety

/-! ## Coils -/

theorem setCoil_fields (t : End) (b : Bool) (a : Actuator) :
    ∃ la lb, a.setCoil t b = { a with lineA := la, lineB := lb } := by
  cases t <;> exact ⟨_, _, rfl⟩

/-- Cutting a pulse changes the two lines and the pulse alone. -/
theorem cutPulse_fields (a : Actuator) : ∃ la lb, a.cutPulse = { a with lineA := la, lineB := lb, pulse := none } := by
  unfold Actuator.cutPulse
  cases h : a.pulse with
  | none => exact ⟨a.lineA, a.lineB, by cases a; simp_all⟩
  | some p =>
    obtain ⟨la, lb, h2⟩ := setCoil_fields p.coil false a
    exact ⟨la, lb, by simp [h2]⟩

theorem cutPulse_none (a : Actuator) (h : a.pulse = none) : a.cutPulse = a := by
  unfold Actuator.cutPulse; rw [h]

/-- Cutting a pulse is what HOLD does to the coils (R14, R24, R27). -/
theorem cutPulse_eq (a : Actuator) : a.cutPulse = coilsUnder .hold a := by
  unfold Actuator.cutPulse coilsUnder
  cases h : a.pulse with
  | none => cases a; simp_all
  | some p => obtain ⟨e, n⟩ := p; cases e <;> simp [Actuator.setCoil]

/-- Both coils off is what RELEASE does to them (R5, R24, R27). -/
theorem coilsOff_eq (a : Actuator) : a.coilsOff = coilsUnder .release a := by
  unfold Actuator.coilsOff coilsUnder Actuator.managed
  cases h : a.cfg.kind <;> simp [Kind.managed, Kind.double]

/-- The coils under an action, from the model's own words. -/
theorem applyAction_eq (c : Action) (a : Actuator) : a.applyAction c = coilsUnder c a := by
  cases c
  · exact cutPulse_eq a
  · exact coilsOff_eq a

/-- Both coils off changes the two lines and the pulse alone. -/
theorem coilsOff_fields (a : Actuator) : ∃ la lb p, a.coilsOff = { a with lineA := la, lineB := lb, pulse := p } := by
  unfold Actuator.coilsOff
  split <;> exact ⟨_, _, _, rfl⟩

/-- A fault, stop or safe action changes the two lines and the pulse alone. -/
theorem applyAction_fields (c : Action) (a : Actuator) :
    ∃ la lb p, a.applyAction c = { a with lineA := la, lineB := lb, pulse := p } := by
  cases c with
  | hold => obtain ⟨la, lb, h⟩ := cutPulse_fields a; exact ⟨la, lb, _, h⟩
  | release => exact coilsOff_fields a

theorem holdAt_fields (t : End) (a : Actuator) : ∃ la lb p, a.holdAt t = { a with lineA := la, lineB := lb, pulse := p } := by
  unfold Actuator.holdAt
  split <;> exact ⟨_, _, _, rfl⟩

theorem applyAction_pulse (c : Action) (a : Actuator) (h : a.managed = true) : (a.applyAction c).pulse = none := by
  cases c with
  | hold =>
    obtain ⟨la, lb, h2⟩ := cutPulse_fields a
    simp [Actuator.applyAction, h2]
  | release =>
    unfold Actuator.managed at h
    unfold Actuator.applyAction Actuator.coilsOff
    cases hk : a.cfg.kind <;> simp_all [Kind.managed]

/-! ## Faults and arrivals -/

/-- The record of a faulted actuator before its fault action (R24). -/
def faultBase (v : View) (c : ActFault) (a : Actuator) : Actuator :=
  { a.stopTimers with
    state := .faulted, fault := some c, target := none, supervised := false, owner := .none, entryTime := v.time }

/-- A fault leaves its actuator as R24 says, and reports it to the owner it had. -/
theorem faultWith_spec (v : View) (c : ActFault) (a : Actuator) :
    FaultedWith v.time c a (a.faultWith v c).act ∧ (a.faultWith v c).report = .failed a.owner c := by
  refine ⟨?_, rfl⟩
  have hb : (a.faultWith v c).act = (faultBase v c a).applyAction a.cfg.faultAction := rfl
  obtain ⟨la, lb, p, h⟩ := applyAction_fields a.cfg.faultAction (faultBase v c a)
  have hp : a.managed = true → (a.faultWith v c).act.pulse = none := fun hm => by
    rw [hb]; exact applyAction_pulse _ (faultBase v c a) hm
  refine { state := ?_, fault := ?_, target := ?_, owner := ?_, supervised := ?_, entry := ?_, timers := ?_,
           position := ?_, cfg := ?_, release := ?release, hold := ?hold, pulse := hp }
  case release =>
    intro hr hm
    rw [hb, hr]
    unfold Actuator.managed at hm
    unfold Actuator.applyAction Actuator.coilsOff
    cases hk : a.cfg.kind <;> simp_all [Kind.managed, Kind.double, faultBase, Actuator.stopTimers]
  case hold =>
    intro hr
    rw [hb, hr, applyAction_eq]
    exact ⟨rfl, rfl⟩
  all_goals
    rw [hb, h]
    first | rfl | exact ⟨rfl, rfl, rfl⟩

/-- A completion hands the actuator to its owner: a lane keeps it, a jog or a safe move gives it up. -/
theorem finish_fields (a : Actuator) :
    (a.finish.act = a ∨ a.finish.act = { a with owner := .none }) ∧ a.finish.report = .done a.owner := by
  unfold Actuator.finish
  split <;> simp_all

/-- An arrival leaves its actuator at rest, and reports a completion. -/
theorem arrive_spec (v : View) (t : End) (sup : Bool) (a : Actuator) :
    ArrivedAt v.time t sup a (a.arrive v t sup).act ∧ (a.arrive v t sup).report = .done a.owner := by
  unfold Actuator.arrive
  obtain ⟨h1, h2⟩ := finish_fields
    { a.stopTimers with
      state := .rest, position := t.position, supervised := sup, target := none, entryTime := v.time }
  refine ⟨?_, h2⟩
  rcases h1 with h | h <;> rw [h] <;> constructor <;> first | rfl | exact ⟨rfl, rfl, rfl⟩

/-! ## Owners that are given up -/

/-- The same actuator, its owner perhaps given up. -/
def OwnerDropped (a b : Actuator) : Prop := b = a ∨ b = { a with owner := .none }

theorem OwnerDropped.refl (a : Actuator) : OwnerDropped a a := Or.inl rfl

theorem OwnerDropped.trans {a b c : Actuator} (h1 : OwnerDropped a b) (h2 : OwnerDropped b c) : OwnerDropped a c := by
  rcases h1 with h1 | h1 <;> rcases h2 with h2 | h2 <;> subst h1 <;> subst h2
  · exact Or.inl rfl
  · exact Or.inr rfl
  · exact Or.inr rfl
  · exact Or.inr rfl

theorem OwnerDropped.moving {a b : Actuator} (h : OwnerDropped a b) : b.moving = a.moving := by
  rcases h with h | h <;> subst h <;> rfl

theorem OwnerDropped.none {a b : Actuator} (h : OwnerDropped a b) (ho : a.owner = .none) : b = a := by
  rcases h with h | h
  · exact h
  · subst h; cases a; simp_all

/-- A managed actuator whose target coil is energised at entry to TRAVEL is the `travelling` one. -/
theorem energise_travelling (v : View) (e : End) (a : Actuator) (h : a.managed = true) :
    Actuator.energise e { a with
      state := .travel, target := some e, entryTime := v.time,
      gapTimer := none, travelTimer := some a.cfg.travelLimit, settleTimer := none } = travelling v.time e a := by
  unfold Actuator.managed at h
  cases hk : a.cfg.kind <;> cases e <;> simp_all [Kind.managed, Actuator.energise, travelling, Actuator.setCoil]

/-- Entry to TRAVEL of a managed actuator (R13, R15, R21). -/
theorem enterTravel_eq (v : View) (e : End) (a : Actuator) (h : a.managed = true) :
    a.enterTravel v e =
      if (travelling v.time e a).inConflict v then (travelling v.time e a).faultWith v .conflict
      else if (travelling v.time e a).senses v e then (travelling v.time e a).enterSettle v e
      else (travelling v.time e a).silent := by
  unfold Actuator.enterTravel
  rw [energise_travelling v e a h]

theorem inConflict_iff (v : View) (a : Actuator) : a.inConflict v = true ↔ conflicting v a := by
  simp [Actuator.inConflict, conflicting, and_assoc]

theorem senses_iff (v : View) (e : End) (a : Actuator) : a.senses v e = true ↔ sensed v e a := by
  simp [Actuator.senses, sensed]

theorem fromSensors_eq (v : View) (a : Actuator) : a.fromSensors v = tracked v a := rfl

/-! ## Stops, safe actions and the start of a move -/

/-- The stop of a moving actuator (R27). -/
theorem stopWith_eq (v : View) (c : Action) (a : Actuator) : a.stopWith v c = stoppedBy v c a := by
  unfold Actuator.stopWith
  dsimp only
  rw [applyAction_eq, fromSensors_eq]
  cases c
  · rfl
  · unfold stoppedBy coilsUnder Actuator.managed Actuator.stopTimers
    cases a.cfg.kind.managed <;> simp

/-- A stop order (R27). -/
theorem stop_eq (v : View) (a : Actuator) :
    a.stop v = if a.moving then stoppedBy v a.cfg.stopAction a else a := by
  unfold Actuator.stop
  rw [stopWith_eq]

/-- The result that a report gives the move of a step: PENDING while the actuator goes on (R46). -/
def Report.result : Report → MoveResult
  | .quiet => .pending
  | .done _ => .done
  | .failed _ _ => .failed

theorem holdAt_eq (e : End) (a : Actuator) : a.holdAt e = heldAt e a := rfl

/-- A completion hands the actuator on as `ownerKept` says. -/
theorem finish_eq (a : Actuator) :
    a.finish = { act := { a with owner := ownerKept a.owner }, report := .done a.owner } := by
  obtain ⟨_, _, _, _, o, _⟩ := a
  cases o <;> rfl

/-- Entry to SETTLE without a conflict (R15). -/
theorem enterSettle_eq (v : View) (e : End) (a : Actuator) (h : ¬ conflicting v a) :
    a.enterSettle v e =
      if a.cfg.settleTime = 0 then
        ({ a with state := .settle, target := some e, entryTime := v.time } : Actuator).arrive v e true
      else { a with
        state := .settle, target := some e, entryTime := v.time, settleTimer := some a.cfg.settleTime }.silent :=
  if_neg fun h1 => h ((inConflict_iff v _).1 h1)

/-- Entry to TRAVEL, whatever becomes of it in the event (R13, R15, R17, R21). -/
theorem enterTravel_spec (v : View) (e : End) (a : Actuator) (h : a.managed = true) :
    EntersTravel v e a (a.enterTravel v e).act (a.enterTravel v e).report.result := by
  rw [enterTravel_eq v e a h]
  have hc : (travelling v.time e a).inConflict v = true ↔ conflicting v a := inConflict_iff v _
  have hs : (travelling v.time e a).senses v e = true ↔ sensed v e a := senses_iff v e _
  refine ⟨fun h1 => ?_, fun h1 h2 => ?_, fun h1 h2 h3 => ?_, fun h1 h2 h3 => ?_⟩
  · rw [if_pos (hc.2 h1)]
    exact ⟨(faultWith_spec v .conflict _).1, rfl⟩
  · rw [if_neg (mt hc.1 h1), if_neg (mt hs.1 h2)]
    exact ⟨rfl, rfl⟩
  all_goals
    rw [if_neg (mt hc.1 h1), if_pos (hs.2 h2), enterSettle_eq v e (travelling v.time e a) h1]
  · rw [if_neg (show (travelling v.time e a).cfg.settleTime ≠ 0 from h3)]
    exact ⟨rfl, rfl⟩
  · rw [if_pos (show (travelling v.time e a).cfg.settleTime = 0 from h3)]
    unfold Actuator.arrive
    dsimp only
    rw [finish_eq]
    exact ⟨rfl, rfl⟩

theorem oppositeOn_iff (e : End) (a : Actuator) : a.oppositeOn e = true ↔ OppositeOn e a := by
  unfold Actuator.oppositeOn OppositeOn
  cases h : a.cfg.kind <;> simp [Option.any_eq_true]

/-- The record at entry to GAP (R12). -/
theorem inGap_eq (v : View) (e : End) (a : Actuator) :
    ({ a.cutPulse.setCoil e.opposite false with state := .gap, target := some e, entryTime := v.time } : Actuator) =
      inGap v e a := by
  rw [cutPulse_eq]
  cases e <;> simp [inGap, Actuator.setCoil, End.opposite]

/-- Entry to GAP (R12, R21). -/
theorem enterGap_eq (v : View) (e : End) (a : Actuator) :
    a.enterGap v e =
      if (inGap v e a).inConflict v then (inGap v e a).faultWith v .conflict
      else if (inGap v e a).cfg.crossoverGap = 0 then (inGap v e a).enterTravel v e
      else { inGap v e a with gapTimer := some (inGap v e a).cfg.crossoverGap }.silent := by
  rw [← inGap_eq]
  rfl

/-- A move that runs (R12, R13). -/
theorem runMove_spec (v : View) (e : End) (a : Actuator) (h : a.managed = true) :
    RunsToward v e { a.stopTimers with supervised := false } (a.runMove v e).act (a.runMove v e).report.result := by
  unfold Actuator.runMove
  dsimp only
  generalize hb : ({ a.stopTimers with supervised := false } : Actuator) = b
  have hm : b.managed = true := by subst hb; exact h
  refine ⟨fun ho => ?_, fun ho => ?_⟩
  · rw [if_pos ((oppositeOn_iff _ _).2 ho), enterGap_eq]
    have hc : (inGap v e b).inConflict v = true ↔ conflicting v b := inConflict_iff v _
    refine ⟨fun h1 => ?_, fun h1 h2 => ?_, fun h1 h2 => ?_⟩
    · rw [if_pos (hc.2 h1)]
      exact ⟨(faultWith_spec v .conflict _).1, rfl⟩
    · rw [if_neg (mt hc.1 h1), if_neg (show (inGap v e b).cfg.crossoverGap ≠ 0 from h2)]
      exact ⟨rfl, rfl⟩
    · rw [if_neg (mt hc.1 h1), if_pos (show (inGap v e b).cfg.crossoverGap = 0 from h2)]
      exact enterTravel_spec v e _ hm
  · rw [if_neg (mt (oppositeOn_iff _ _).1 ho)]
    exact enterTravel_spec v e _ hm

/-- A move toward an end (R10, R12). -/
theorem moveToward_at (v : View) (e : End) (a : Actuator)
    (h : a.state = .rest ∧ a.position = e.position ∧ a.supervised = true) :
    a.moveToward v e = { act := { heldAt e a with owner := ownerKept a.owner }, report := .done a.owner } := by
  have hf : (a.holdAt e).owner = a.owner := by
    obtain ⟨_, _, _, h2⟩ := holdAt_fields e a
    rw [h2]
  unfold Actuator.moveToward
  rw [if_pos (by simp [h.1, h.2.1, h.2.2]), finish_eq, hf, holdAt_eq]

/-- A move toward an end starts on an actuator of a clear bank (R9). -/
theorem startMove_toward (v : View) (owner : Owner) (e : End) (a : Actuator) (h : v.latched = false) :
    a.startMove v owner e.asMove = ({ a with owner := owner } : Actuator).moveToward v e := by
  unfold Actuator.startMove
  cases e <;> exact if_neg (by simp [h])

/-- The start of a move on a managed actuator (R9 to R13). -/
theorem startMove_spec (v : View) (owner : Owner) (t : MoveTarget) (a : Actuator) (h : a.managed = true) :
    MoveBegins v owner t a (a.startMove v owner t).act (a.startMove v owner t).report.result := by
  refine ⟨fun h1 => ?_, fun h1 h2 => ?_, fun e h1 h2 => ?_⟩
  · unfold Actuator.startMove
    dsimp only
    rw [if_pos h1]
    obtain ⟨h3, _⟩ := faultWith_spec v .drive { a with owner := owner }
    exact ⟨⟨h3.state, h3.fault, h3.target, h3.owner, h3.supervised, h3.entry, h3.timers, h3.position, h3.cfg, h3.release,
      h3.hold, h3.pulse⟩, rfl⟩
  · subst h2
    unfold Actuator.startMove
    dsimp only
    rw [if_neg (by simp [h1])]
    unfold Actuator.releaseMove
    dsimp only
    rw [finish_eq, coilsOff_eq]
    refine ⟨?_, rfl⟩
    have h3 : a.cfg.kind.managed = true := h
    unfold coilsUnder Actuator.managed Actuator.stopTimers
    by_cases hst : a.state = .rest <;> simp [h3, hst]
  · rw [h2, startMove_toward v owner e a h1]
    refine ⟨fun h3 => ?_, fun h3 => ?_⟩
    · rw [moveToward_at v e { a with owner := owner } h3]
      refine ⟨?_, rfl⟩
      unfold heldAt
      cases a.cfg.kind <;> rfl
    · unfold Actuator.moveToward
      rw [if_neg (by simpa [and_assoc] using h3)]
      exact runMove_spec v e { a with owner := owner } h

/-- A safe action (R28, R29). -/
theorem safeAct_spec (v : View) (a : Actuator) (h : a.managed = true) (ho : a.state ≠ .off) (hf : a.state ≠ .faulted) :
    SafeActionTaken v a (a.safeAct v).act := by
  have move : ∀ e, SafeMoveTaken v e a (a.safeMove v e).act := by
    intro e
    unfold Actuator.safeMove
    refine ⟨fun h1 h2 => ?_, fun h1 => ?_⟩
    · rw [if_pos (by simp [h1, h2])]; rfl
    · rw [if_neg (by simpa using h1)]
      exact ⟨_, startMove_spec v .safe e.asMove a h⟩
  unfold Actuator.safeAct SafeActionTaken
  rw [if_neg (by simp [h, ho, hf])]
  cases a.cfg.safeAction
  · unfold Actuator.safeStill Actuator.silent
    dsimp only
    split
    · exact stopWith_eq v .hold a
    · rfl
  · unfold Actuator.safeStill Actuator.silent
    dsimp only
    split
    · exact stopWith_eq v .release a
    · rw [fromSensors_eq, coilsOff_eq]
  · exact move .x
  · exact move .r

end Sys2Proof.Machine

namespace Sys2Proof.Safety

open Sys2Proof.Machine

theorem FaultedWith.drop {now : Time} {c : ActFault} {a b d : Actuator} (h : FaultedWith now c a b)
    (hd : OwnerDropped b d) : FaultedWith now c a d := by
  rw [hd.none h.owner]; exact h

theorem ArrivedAt.drop {now : Time} {e : End} {sup : Bool} {a b d : Actuator} (h : ArrivedAt now e sup a b)
    (hd : OwnerDropped b d) : ArrivedAt now e sup a d := by
  rcases hd with hd | hd <;> subst hd
  · exact h
  · exact ⟨h.state, h.position, h.supervised, h.target, h.entry, h.timers, h.coils, h.cfg⟩

end Sys2Proof.Safety
end

