-- ==== Sys2Proof/Laws/Event.lean ====
section
/-! SUPPORT. What the end of an event and the handling of a good frame can do, said once: provers cite these lemmas instead of
unfolding settle, close, answer and goodFrame. -/

namespace Sys2Proof.Machine

open Sys2Proof.Safety

/-! ## The transmitter touches the link alone -/

/-- The transmitter's turn changes the sending flag, the attention slot and its counter, and the free draws alone. -/
theorem beginNext_frame (fresh : Bool) (s : State) :
    ∃ sending slot counter draws, s.beginNext fresh = { s with
      freeDraws := draws
      link := { s.link with replySending := sending, attnSlot := slot, attnCounter := counter } } := by
  unfold State.beginNext State.beginAttention State.beginReply
  split
  · split
    · split
      · split <;> exact ⟨_, _, _, _, rfl⟩
      · exact ⟨_, _, _, _, rfl⟩
    · split
      · exact ⟨_, _, _, _, rfl⟩
      · exact ⟨_, _, _, _, rfl⟩
  · exact ⟨_, _, _, _, rfl⟩

/-- The end of an event whose body left the heart as `e`. -/
theorem settle_eq (s : State) (e : Event) : ∃ slot, s.settle e = { s with
    motion := e.m
    notices := { s.notices.takeAll s.time e.raised with attn := (s.notices.takeAll s.time e.raised).attention }
    link := { s.link with attnSlot := slot } } := ⟨_, rfl⟩

/-- Every event that starts no step in its body ends as `After` says. -/
theorem After.of_close (b : Body) (hs : b.e.started = []) :
    After { b.s with motion := b.e.m } b.e.raised b.close := by
  have he : endOf { b.s with motion := b.e.m } b.e.raised = b.e.arbitrate b.s.env := by
    unfold endOf
    congr 1
    exact Event.ext_parts rfl rfl hs.symm
  obtain ⟨slot, h1⟩ := settle_eq b.s (b.e.arbitrate b.s.env)
  obtain ⟨f, sl, c, d, h2⟩ := beginNext_frame (b.s.link.attnSlot == .empty) (b.s.settle (b.e.arbitrate b.s.env))
  have h3 : b.close = _ := h2
  rw [h3, h1]
  constructor <;> first | rfl | (rw [he]) | (constructor <;> rfl)

/-- The event that its command answers with ends as `After` says. -/
theorem Yields.of_close {c : Instr} {s u : State} {raised : List Raised} (b : Body)
    (hx : exec c s = .next b.close) (hs : b.e.started = []) (hu : { b.s with motion := b.e.m } = u)
    (hr : b.e.raised = raised) : Yields c s u raised := by
  subst hu; subst hr
  exact ⟨_, hx, After.of_close b hs⟩

/-- An event with an empty body. -/
theorem Yields.of_body {c : Instr} {s : State} (t : State) (hx : exec c s = .next t.body.close) : Yields c s t [] :=
  Yields.of_close t.body hx rfl rfl rfl

theorem close_modes (b : Body) : b.close.modes = b.s.modes := by
  obtain ⟨_, h⟩ := settle_eq b.s (b.e.arbitrate b.s.env)
  obtain ⟨_, _, _, _, h'⟩ := beginNext_frame (b.s.link.attnSlot == .empty) (b.s.settle (b.e.arbitrate b.s.env))
  have hc : b.close = _ := h'
  rw [hc, h]

theorem close_openEnd (b : Body) : b.close.openEnd = b.s.openEnd := by
  obtain ⟨_, h⟩ := settle_eq b.s (b.e.arbitrate b.s.env)
  obtain ⟨_, _, _, _, h'⟩ := beginNext_frame (b.s.link.attnSlot == .empty) (b.s.settle (b.e.arbitrate b.s.env))
  have hc : b.close = _ := h'
  rw [hc, h]

/-- An event whose body leaves the part operating leaves it operating. -/
theorem close_operating (b : Body) (hb : Operating b.s) : Operating b.close := by
  unfold Operating
  rw [close_modes, close_openEnd]
  exact hb

/-! ## The end of a delay expiry's event (log 24) -/

theorem shut_closed {s : State} (h : s.openEnd = none) : s.shut = s := by unfold State.shut; rw [h]

/-- An open end is the end of an event that does nothing else. -/
theorem shut_after {s : State} {l : LaneIx} (h : s.openEnd = some l) : After { s with openEnd := none } [] s.shut := by
  unfold State.shut
  rw [h]
  exact After.of_close { s with openEnd := none }.body rfl

/-- What an event is taken on while the part operates. -/
theorem liveAs_running (p : Bool) (f : State → State) {s : State} (h : s.modes.inReset = none) :
    s.liveAs p f = f (if p then { s with openEnd := none } else s.shut) := by unfold State.liveAs; rw [h]; rfl

theorem live_running (f : State → State) {s : State} (h : s.modes.inReset = none) : s.live f = f s.shut :=
  liveAs_running false f h

theorem liveAs_operating (p : Bool) (f : State → State) {s : State} (h : Operating s) : s.liveAs p f = f s := by
  rw [liveAs_running p f h.1, shut_closed h.2]
  split
  · rw [← h.2]
  · rfl

theorem live_operating (f : State → State) {s : State} (h : Operating s) : s.live f = f s := liveAs_operating false f h

/-- The end of a delay expiry's event leaves the part operating. -/
theorem shut_operating {s : State} (hs : s.modes.inReset = none) : Operating s.shut := by
  unfold State.shut
  split
  · exact ⟨hs, ‹_›⟩
  · exact close_operating _ ⟨hs, rfl⟩

/-- An event that falls together with no other is taken on the state whose open end has come. -/
theorem live_shut (f : State → State) {s : State} (h : s.modes.inReset = none) : s.live f = s.shut.live f := by
  rw [live_running f h, live_operating f (shut_operating h)]

/-- The requests that fall together with a delay expiry whose end is open. -/
theorem takesHeadOut_iff {s : State} {l : LaneIx} (h : s.openEnd = some l) (kind : Byte) (p : List Byte) :
    s.takesHeadOut kind p = true ↔
      (kind = 0x23 ∨ kind = 0x24) ∧ p = [byteOf l.val] ∨
        kind = 0x22 ∧ ∃ g rest, (s.motion.lane l).steps = g :: rest ∧ p = byteOf l.val :: bytes16 g.tag := by
  unfold State.takesHeadOut
  rw [h]
  cases hs : (s.motion.lane l).steps <;> simp [Lane.head?, hs]

/-! ## Requests -/

/-- A request that its owner answers OK ends as `After` says, its reply queued and stored. -/
theorem After.of_answer (seq kind : Byte) (r : Served) (hst : r.status = .ok) (hs : r.body.e.started = []) :
    After
      { r.body.s with
        motion := r.body.e.m
        link := { r.body.s.link with
          replies := r.body.s.link.replies ++ [r.frame seq kind]
          seqRecord := some { seq := seq, reply := r.frame seq kind } } }
      r.body.e.raised (r.answer seq kind) := by
  have he : ∀ k, endOf { r.body.s with motion := r.body.e.m, link := k } r.body.e.raised
      = r.body.e.arbitrate r.body.s.env := by
    intro k
    unfold endOf
    congr 1
    exact Event.ext_parts rfl rfl hs.symm
  obtain ⟨slot, h1⟩ := settle_eq r.body.s (r.body.e.arbitrate r.body.s.env)
  unfold Served.answer Served.ended State.queueReply
  rw [if_pos hst, h1]
  obtain ⟨f, sl, c, d, h2⟩ := beginNext_frame (r.body.s.link.attnSlot == AttnSlot.empty)
    { r.body.s with
      motion := (r.body.e.arbitrate r.body.s.env).m
      notices := { r.body.s.notices.takeAll r.body.s.time (r.body.e.arbitrate r.body.s.env).raised with
        attn := (r.body.s.notices.takeAll r.body.s.time (r.body.e.arbitrate r.body.s.env).raised).attention }
      link := { r.body.s.link with
        attnSlot := slot
        replies := r.body.s.link.replies ++ [r.frame seq kind]
        seqRecord := some { seq := seq, reply := r.frame seq kind } } }
  simp only [h2]
  constructor <;> first | rfl | (rw [he]) | (constructor <;> rfl)

theorem received_eq (s : State) :
    ({ s.frameDone with link := s.frameDone.link.restartWatch } : State) = received s := by
  unfold State.frameDone received watchRestarted Link.restartWatch
  by_cases h : s.link.watchSetting = 0 <;> simp [h]

@[simp] theorem received_modes (s : State) : (received s).modes = s.modes := rfl

@[simp] theorem received_motion (s : State) : (received s).motion = s.motion := rfl

@[simp] theorem received_notices (s : State) : (received s).notices = s.notices := rfl

@[simp] theorem received_inputs (s : State) : (received s).inputs = s.inputs := rfl

@[simp] theorem received_latches (s : State) : (received s).latches = s.latches := rfl

@[simp] theorem received_haltIn (s : State) : (received s).haltIn = s.haltIn := rfl

@[simp] theorem received_drvflt (s : State) : (received s).drvflt = s.drvflt := rfl

@[simp] theorem received_time (s : State) : (received s).time = s.time := rfl

@[simp] theorem received_tickOwed (s : State) : (received s).tickOwed = s.tickOwed := rfl

@[simp] theorem received_openEnd (s : State) : (received s).openEnd = s.openEnd := rfl

@[simp] theorem received_env (s : State) : (received s).env = s.env := rfl

@[simp] theorem received_replies (s : State) : (received s).link.replies = s.link.replies := rfl

@[simp] theorem received_seqRecord (s : State) : (received s).link.seqRecord = s.link.seqRecord := rfl

/-- The handling of a good frame, over the state with the frame received (R160). -/
theorem handleFrame_eq (s : State) (seq kind : Byte) (req : Request) (payload : List Byte) :
    s.handleFrame seq kind req payload =
      if 4 ≤ s.link.replies.length then (received s).overrun.body.close
      else match s.link.seqRecord with
        | none => (req payload (received s)).answer seq kind
        | some r => if r.seq = seq then (received s).replay r.reply else (req payload (received s)).answer seq kind := by
  unfold State.handleFrame
  rw [received_eq]
  rfl

/-- A new request is handed to its owner with the frame received, and answered (R162). -/
theorem goodFrame_taken {s : State} {seq : Byte} (h : Takes s seq) (kind : Byte) (req : Request) (payload : List Byte) :
    s.goodFrame seq kind req payload = (req payload (received s)).answer seq kind := by
  obtain ⟨h1, h2, h3, h4⟩ := h
  unfold State.goodFrame
  rw [liveAs_operating _ _ h1]
  have h5 : ¬ 4 ≤ s.link.replies.length := by omega
  simp only [h2, handleFrame_eq, h5, Option.isSome_none, Bool.false_eq_true, if_false]
  cases hr : s.link.seqRecord with
  | none => rfl
  | some r => simp [h4 r hr]

/-- A request command whose meaning is the good frame `req`, answered OK: its outcome from what its owner makes of it. -/
theorem Yields.of_request {c : Instr} {s : State} {seq kind : Byte} {req : Request} {payload : List Byte} {u : State}
    {raised : List Raised} (h : Takes s seq) (hx : exec c s = .next (s.goodFrame seq kind req payload))
    (hst : (req payload (received s)).status = .ok) (hs : (req payload (received s)).body.e.started = [])
    (hu : ({ (req payload (received s)).body.s with
        motion := (req payload (received s)).body.e.m
        link := { (req payload (received s)).body.s.link with
          replies := (req payload (received s)).body.s.link.replies ++ [(req payload (received s)).frame seq kind]
          seqRecord := some { seq := seq, reply := (req payload (received s)).frame seq kind } } } : State) = u)
    (hr : (req payload (received s)).body.e.raised = raised) : Yields c s u raised := by
  subst hu; subst hr
  exact ⟨_, hx.trans (by rw [goodFrame_taken h]), After.of_answer seq kind _ hst hs⟩

/-- Where no attention frame has been queued in the event, the transmitter's turn draws no free choice: it touches the link
alone. -/
theorem beginNext_link (s : State) : s.beginNext (s.link.attnSlot == .empty) =
    { s with link := (s.beginNext (s.link.attnSlot == .empty)).link } := by
  unfold State.beginNext State.beginAttention State.beginReply
  cases h : s.link.attnSlot with
  | empty => repeat' split
             all_goals first | rfl | simp_all
  | waiting => repeat' split
               all_goals first | rfl | simp_all
  | sending f => repeat' split
                 all_goals first | rfl | simp_all

/-- A refusal leaves everything but the link alone (R175). -/
theorem Refuses.of_refuseWith {c : Instr} {s : State} {seq kind : Byte} {req : Request} {payload : List Byte}
    (st : Status) (content : List Byte) (hst : st ≠ .ok) (h : Takes s seq)
    (hx : exec c s = .next (s.goodFrame seq kind req payload))
    (hq : req payload (received s) = refuseWith st content (received s)) :
    Refuses c s (answering s seq kind st content) := by
  have he : (refuseWith st content (received s)).ended = received s := if_neg hst
  have ha : (refuseWith st content (received s)).answer seq kind =
      (answering s seq kind st content).beginNext ((answering s seq kind st content).link.attnSlot == .empty) := by
    unfold Served.answer
    rw [he]
    rfl
  obtain ⟨_, _, _, _, hb⟩ := beginNext_frame ((answering s seq kind st content).link.attnSlot == .empty)
    (answering s seq kind st content)
  refine ⟨_, hx.trans (by rw [goodFrame_taken h, hq, ha]), beginNext_link _, ?_⟩
  rw [hb]
  constructor <;> rfl

/-- A refusal with the status alone. -/
theorem Refuses.of_refuse {c : Instr} {s : State} {seq kind : Byte} {req : Request} {payload : List Byte}
    (st : Status) (hst : st ≠ .ok) (h : Takes s seq)
    (hx : exec c s = .next (s.goodFrame seq kind req payload))
    (hq : req payload (received s) = refuse st (received s)) :
    Refuses c s (answering s seq kind st []) := Refuses.of_refuseWith st [] hst h hx hq

/-- A request answered OK that touches no block but those of `t`, its heart left as `m` with the notices `raised`. -/
theorem Yields.of_ok {c : Instr} {s : State} {seq kind : Byte} {req : Request} {payload : List Byte}
    (body : Body) (content : List Byte) (h : Takes s seq)
    (hx : exec c s = .next (s.goodFrame seq kind req payload))
    (hq : req payload (received s) = okWith body content) (hs : body.e.started = []) {u : State} {raised : List Raised}
    (hu : ({ body.s with
        motion := body.e.m
        link := { body.s.link with
          replies := body.s.link.replies ++ [replyTo seq kind .ok content]
          seqRecord := some { seq := seq, reply := replyTo seq kind .ok content } } } : State) = u)
    (hr : body.e.raised = raised) : Yields c s u raised := by
  subst hu; subst hr
  apply Yields.of_request h hx <;> rw [hq]
  · rfl
  · exact hs
  · rfl
  · rfl

/-! ## The arbiter with nothing to do -/

theorem arbitrate_not_run (v : Env) (e : Event) (h : v.mode ≠ .run) : Event.arbitrate v e = e := by
  unfold Event.arbitrate
  have : (v.mode == Mode.run) = false := by cases hm : v.mode <;> simp_all
  simp [this]

theorem startReady_no_queue (v : Env) (n : Nat) (e : Event) (h : e.m.queue = []) : Event.startReady v n e = e := by
  cases n with
  | zero => rfl
  | succ n => simp [Event.startReady, h, Event.findReady]

theorem arbitrate_no_queue (v : Env) (e : Event) (h : e.m.queue = []) : Event.arbitrate v e = e := by
  unfold Event.arbitrate
  split
  · exact startReady_no_queue v 4 e h
  · rfl

/-- With the mode not RUN or the start queue empty the end of an event starts no step. -/
theorem endOf_calm (u : State) (raised : List Raised) (h : Calm u) :
    endOf u raised = { m := u.motion, raised := raised, started := [] } := by
  unfold endOf
  cases h with
  | inl h => exact arbitrate_not_run _ _ h
  | inr h => exact arbitrate_no_queue _ _ h

end Sys2Proof.Machine
end

