-- ==== Sys2Proof/Laws/Lanes.lean ====
section
/-! SUPPORT. What the operations of a lane inside an event can change, said once (`LaneFrame`): the actuators at rest but for
an owner given up, one lane, and notices added behind those raised before. -/

namespace Sys2Proof.Machine

open Sys2Proof.Safety

/-- From `e` to `e'` only lane `l` acts: every actuator that does not move keeps all but its owner, which may be given up,
no other lane changes, no lane starts, and the notices raised before stay in front. -/
structure LaneFrame (l : LaneIx) (e e' : Event) : Prop where
  acts : ∀ b, (e.m.act b).moving = false → OwnerDropped (e.m.act b) (e'.m.act b)
  lanes : ∀ j, j ≠ l → e'.m.lane j = e.m.lane j
  started : e'.started = e.started
  raised : ∃ more, e'.raised = e.raised ++ more

theorem LaneFrame.refl (l : LaneIx) (e : Event) : LaneFrame l e e :=
  ⟨fun _ _ => .refl _, fun _ _ => rfl, rfl, ⟨[], by simp⟩⟩

theorem LaneFrame.trans {l : LaneIx} {e f g : Event} (h1 : LaneFrame l e f) (h2 : LaneFrame l f g) : LaneFrame l e g := by
  refine ⟨?_, ?_, h2.started.trans h1.started, ?_⟩
  · intro b hb
    have h3 := h1.acts b hb
    exact h3.trans (h2.acts b (by rw [h3.moving]; exact hb))
  · intro j hj
    rw [h2.lanes j hj, h1.lanes j hj]
  · obtain ⟨m1, h3⟩ := h1.raised
    obtain ⟨m2, h4⟩ := h2.raised
    exact ⟨m1 ++ m2, by rw [h4, h3, List.append_assoc]⟩

theorem LaneFrame.setLane (l : LaneIx) (e : Event) (x : Lane) : LaneFrame l e (e.setLane l x) :=
  ⟨fun _ _ => .refl _, fun _ hj => lane_setLane_ne _ _ _ _ hj, rfl, ⟨[], by simp⟩⟩

theorem LaneFrame.raise (l : LaneIx) (e : Event) (n : Raised) : LaneFrame l e (e.raise n) :=
  ⟨fun _ _ => .refl _, fun _ _ => rfl, rfl, ⟨[n], rfl⟩⟩

/-- An update of the heart that keeps actuators and lanes. -/
theorem LaneFrame.of_parts (l : LaneIx) (e e' : Event) (ha : e'.m.acts = e.m.acts) (hl : e'.m.lanes = e.m.lanes)
    (hs : e'.started = e.started) (hr : e'.raised = e.raised) : LaneFrame l e e' := by
  refine ⟨?_, ?_, hs, ⟨[], by simp [hr]⟩⟩
  · intro b _
    unfold Motion.act; rw [ha]; exact .refl _
  · intro j _
    unfold Motion.lane; rw [hl]

theorem LaneFrame.setAct {l : LaneIx} {e : Event} {a : ActIx} {x : Actuator}
    (h : (e.m.act a).moving = false → OwnerDropped (e.m.act a) x) : LaneFrame l e (e.setAct a x) := by
  refine ⟨?_, fun _ _ => rfl, rfl, ⟨[], by simp⟩⟩
  intro b hb
  rw [m_setAct, act_setAct]
  split
  · rename_i hba; subst hba; exact h hb
  · exact .refl _

theorem foldl_frame {α : Type} (l : LaneIx) (f : Event → α → Event) (h : ∀ e x, LaneFrame l e (f e x)) (xs : List α) :
    ∀ e, LaneFrame l e (xs.foldl f e) := by
  induction xs with
  | nil => intro e; exact .refl _ _
  | cons x xs ih => intro e; exact (h e x).trans (ih _)

theorem record_frame (l : LaneIx) (a : ActIx) (r : MoveResult) (e : Event) : LaneFrame l e (e.record l a r) := by
  unfold Event.record; split
  · exact .setLane _ _ _
  · exact .refl _ _

theorem leaveQueue_frame (l : LaneIx) (e : Event) : LaneFrame l e (e.leaveQueue l) :=
  .of_parts _ _ _ rfl rfl rfl rfl

theorem joinQueue_frame (l : LaneIx) (e : Event) : LaneFrame l e (e.joinQueue l) := by
  unfold Event.joinQueue; split
  · exact .refl _ _
  · exact (LaneFrame.setLane l e _).trans (.of_parts _ _ _ rfl rfl rfl rfl)

theorem waitHead_frame (l : LaneIx) (r : RunStatus) (t : Timer) (e : Event) : LaneFrame l e (e.waitHead l r t) :=
  .setLane _ _ _

theorem evaluate_frame (v : Env) (l : LaneIx) (e : Event) : LaneFrame l e (e.evaluate v l) := by
  unfold Event.evaluate
  split
  · exact .refl _ _
  · split
    · split
      · exact joinQueue_frame _ _
      · exact joinQueue_frame _ _
      · exact joinQueue_frame _ _
      · split
        · exact joinQueue_frame _ _
        · exact waitHead_frame _ _ _ _
      · split
        · exact joinQueue_frame _ _
        · exact waitHead_frame _ _ _ _
    · exact waitHead_frame _ _ _ _

theorem holdLane_frame (l : LaneIx) (st : LaneState) (e : Event) : LaneFrame l e (e.holdLane l st) :=
  (leaveQueue_frame l e).trans (.setLane _ _ _)

theorem keepSteps_frame (l : LaneIx) (steps : List Step) (e : Event) : LaneFrame l e (e.keepSteps l steps) :=
  (LaneFrame.setLane l e _).trans (.of_parts _ _ _ rfl rfl rfl rfl)

theorem dropHead_frame (v : Env) (l : LaneIx) (e : Event) : LaneFrame l e (e.dropHead v l) := by
  unfold Event.dropHead
  refine (leaveQueue_frame l e).trans ((keepSteps_frame l ((e.leaveQueue l).m.lane l).steps.tail _).trans ?_)
  dsimp only
  split
  · exact .setLane _ _ _
  · exact evaluate_frame _ _ _

theorem releaseAll_frame (l : LaneIx) (moves : List Move) (e : Event) : LaneFrame l e (e.releaseAll moves) :=
  foldl_frame l _ (fun _ _ => .setAct fun _ => Or.inr rfl) _ _

theorem releaseOwned_frame (l k : LaneIx) (moves : List Move) (e : Event) : LaneFrame l e (e.releaseOwned k moves) := by
  refine foldl_frame l _ (fun e mv => ?_) _ _
  dsimp only
  split
  · exact .setAct fun _ => Or.inr rfl
  · exact .refl _ _

theorem stop_rest (v : View) (a : Actuator) (h : a.moving = false) : a.stop v = a := by
  unfold Actuator.stop; simp [h]

theorem stopActs_frame (l : LaneIx) (v : Env) (rs : List (ActIx × MoveResult)) (e : Event) :
    LaneFrame l e (e.stopActs v rs) := by
  refine foldl_frame l _ (fun e p => ?_) _ _
  split
  · exact .setAct fun h => by rw [stop_rest _ _ h]; exact .refl _
  · exact .refl _ _

theorem stopPending_frame (v : Env) (l : LaneIx) (e : Event) : LaneFrame l e (e.stopPending v l) := by
  unfold Event.stopPending
  split
  · exact .refl _ _
  · exact (stopActs_frame l v _ e).trans (.setLane _ _ _)

theorem faultLane_frame (l : LaneIx) (run : RunStatus) (c : LaneFault) (f : Option ActIx) (e : Event) :
    LaneFrame l e (e.faultLane l run c f) := by
  unfold Event.faultLane
  split
  · exact .refl _ _
  · exact (LaneFrame.setLane l e _).trans (.raise _ _ _)

theorem failStep_frame (l : LaneIx) (e : Event) : LaneFrame l e (e.failStep l) := by
  unfold Event.failStep
  split
  · exact .refl _ _
  · exact (releaseOwned_frame l l _ e).trans (faultLane_frame _ _ _ _ _)

theorem abortStep_frame (v : Env) (l : LaneIx) (e : Event) : LaneFrame l e (e.abortStep v l) := by
  unfold Event.abortStep
  split
  · exact .refl _ _
  · exact (stopPending_frame v l e).trans ((releaseOwned_frame l l _ _).trans (faultLane_frame _ _ _ _ _))

theorem finishMoves_frame (l : LaneIx) (h : Step) (e : Event) : LaneFrame l e (e.finishMoves l h) := by
  unfold Event.finishMoves
  refine (releaseAll_frame l h.moves e).trans ?_
  dsimp only
  cases h.mark with
  | none =>
    split
    · exact .raise _ _ _
    · exact .refl _ _
  | some k =>
    have hk : LaneFrame l (e.releaseAll h.moves)
        { e.releaseAll h.moves with m := (e.releaseAll h.moves).m.setMark k true } := .of_parts _ _ _ rfl rfl rfl rfl
    split
    · exact hk.trans (.raise _ _ _)
    · exact hk

theorem countCycle_frame (l : LaneIx) (h : Step) (e : Event) : LaneFrame l e (e.countCycle l h) := by
  unfold Event.countCycle
  split
  · dsimp only
    split
    · exact (LaneFrame.setLane l e _).trans (.raise _ _ _)
    · exact .setLane _ _ _
  · exact .refl _ _

theorem retire_frame (l : LaneIx) (e : Event) : LaneFrame l e (e.retire l) := by
  unfold Event.retire
  split
  · exact .refl _ _
  · split
    · exact .setLane _ _ _
    · exact keepSteps_frame _ _ _

theorem goOn_frame (v : Env) (l : LaneIx) (e : Event) : LaneFrame l e (e.goOn v l) := by
  unfold Event.goOn
  dsimp only
  split
  · exact .setLane _ _ _
  · split
    · split
      · exact (LaneFrame.setLane l e _).trans (.raise _ _ _)
      · exact .setLane _ _ _
    · exact evaluate_frame _ _ _

theorem completeStep_frame (v : Env) (l : LaneIx) (e : Event) : LaneFrame l e (e.completeStep v l) := by
  unfold Event.completeStep
  split
  · exact .refl _ _
  · rename_i h _ _
    exact (finishMoves_frame l h e).trans ((countCycle_frame l h _).trans ((retire_frame l _).trans (goOn_frame v l _)))

/-- A lane acting on its results changes no actuator at rest but for its owner, and no other lane. -/
theorem actOnResults_frame (v : Env) (l : LaneIx) (e : Event) : LaneFrame l e (e.actOnResults v l) := by
  unfold Event.actOnResults
  split
  · split
    · exact .refl _ _
    · split
      · split
        · split
          · exact (stopPending_frame v l e).trans (failStep_frame l _)
          · exact .refl _ _
        · exact failStep_frame _ _
      · split
        · exact completeStep_frame _ _ _
        · exact .refl _ _
  · exact .refl _ _

/-! ## An actuator acts, and its lane with it -/

/-- A report that concerns no lane leaves the heart alone. -/
theorem takeReport_no_lane (a : ActIx) (r : Report) (e : Event) (h : r.lane? = none) :
    (e.takeReport a r).m = e.m ∧ (e.takeReport a r).started = e.started := by
  unfold Event.takeReport
  split <;> first | exact ⟨rfl, rfl⟩ | (simp [Report.lane?] at h)

theorem takeReport_frame (l : LaneIx) (a : ActIx) (r : Report) (e : Event) (h : r.lane? = some l ∨ r.lane? = none) :
    LaneFrame l e (e.takeReport a r) := by
  unfold Event.takeReport
  split <;> first
    | exact .refl _ _
    | exact .raise _ _ _
    | (simp only [Report.lane?] at h
       rcases h with h | h
       · cases h
         first
           | exact record_frame _ _ _ _
           | exact (LaneFrame.raise _ _ _).trans (record_frame _ _ _ _)
       · cases h)

/-- An actuator whose report concerns no lane: it alone changes. -/
theorem act_no_lane (v : Env) (a : ActIx) (f : View → Actuator → ActOut) (e : Event)
    (h : (f (v.view a) (e.m.act a)).report.lane? = none) :
    e.act v a f = (e.setAct a (f (v.view a) (e.m.act a)).act).takeReport a (f (v.view a) (e.m.act a)).report := by
  unfold Event.act
  simp only [h]

/-- An actuator that acts and ends at rest keeps what it did but for its owner; its report is raised at once. -/
theorem act_self (v : Env) (a : ActIx) (f : View → Actuator → ActOut) (e : Event)
    (hm : (f (v.view a) (e.m.act a)).act.moving = false) :
    OwnerDropped (f (v.view a) (e.m.act a)).act ((e.act v a f).m.act a) := by
  cases h : (f (v.view a) (e.m.act a)).report.lane? with
  | none =>
    rw [act_no_lane v a f e h, (takeReport_no_lane a _ _ h).1]
    simp [OwnerDropped.refl]
  | some l =>
    unfold Event.act
    simp only [h]
    have h1 := takeReport_frame l a (f (v.view a) (e.m.act a)).report (e.setAct a (f (v.view a) (e.m.act a)).act)
      (Or.inl h)
    have h2 := (h1.trans (actOnResults_frame v l _)).acts a (by simpa using hm)
    simpa using h2

/-- Notices raised before an actuator acts stay in front, and no lane starts. -/
theorem act_raised (v : Env) (a : ActIx) (f : View → Actuator → ActOut) (e : Event) :
    (e.act v a f).started = e.started ∧
      ∃ more, (e.act v a f).raised =
        ((e.setAct a (f (v.view a) (e.m.act a)).act).takeReport a (f (v.view a) (e.m.act a)).report).raised ++ more := by
  cases h : (f (v.view a) (e.m.act a)).report.lane? with
  | none =>
    rw [act_no_lane v a f e h]
    exact ⟨(takeReport_no_lane a _ _ h).2, [], by simp⟩
  | some l =>
    unfold Event.act
    simp only [h]
    have h1 := takeReport_frame l a (f (v.view a) (e.m.act a)).report (e.setAct a (f (v.view a) (e.m.act a)).act)
      (Or.inl h)
    have h2 := actOnResults_frame v l
      ((e.setAct a (f (v.view a) (e.m.act a)).act).takeReport a (f (v.view a) (e.m.act a)).report)
    exact ⟨h2.started.trans (h1.started), h2.raised⟩

/-- Another actuator that does not move keeps all but its owner. -/
theorem act_other (v : Env) (a b : ActIx) (f : View → Actuator → ActOut) (e : Event) (hb : b ≠ a)
    (hm : (e.m.act b).moving = false) : OwnerDropped (e.m.act b) ((e.act v a f).m.act b) := by
  cases h : (f (v.view a) (e.m.act a)).report.lane? with
  | none =>
    rw [act_no_lane v a f e h, (takeReport_no_lane a _ _ h).1]
    rw [m_setAct, act_setAct_ne _ _ _ _ hb]
    exact .refl _
  | some l =>
    unfold Event.act
    simp only [h]
    have h1 := takeReport_frame l a (f (v.view a) (e.m.act a)).report (e.setAct a (f (v.view a) (e.m.act a)).act)
      (Or.inl h)
    have h2 := (h1.trans (actOnResults_frame v l _)).acts b
      (by rw [m_setAct, act_setAct_ne _ _ _ _ hb]; exact hm)
    rw [m_setAct, act_setAct_ne _ _ _ _ hb] at h2
    exact h2

end Sys2Proof.Machine
end

