-- ==== Sys2Proof/Laws/Expiry.lean ====
section
/-! SUPPORT. Events in which one actuator acts: an expiry of its timers, a fault, an arrival. -/

namespace Sys2Proof.Machine

open Sys2Proof.Safety

/-- An actuator that reports nothing changes itself alone. -/
theorem act_quiet (v : Env) (a : ActIx) (f : View → Actuator → ActOut) (e : Event) (x : Actuator)
    (h : f (v.view a) (e.m.act a) = x.silent) : e.act v a f = e.setAct a x := by
  rw [act_no_lane _ _ _ _ (by rw [h]; rfl), h]
  rfl

/-- The event in which one actuator acts. -/
theorem Yields.of_actEvent {c : Instr} {s : State} (a : ActIx) (f : View → Actuator → ActOut)
    (h : exec c s = .next (s.actEvent a f)) :
    Yields c s { s with motion := (s.event.act s.env a f).m } (s.event.act s.env a f).raised :=
  Yields.of_close { s := s, e := s.event.act s.env a f } h (act_raised _ _ _ _).1 rfl rfl

/-- The report of a fault raises ACT_FAULT, whoever owned the actuator. -/
theorem takeReport_failed (a : ActIx) (o : Owner) (c : ActFault) (e : Event) :
    ∃ more, (e.takeReport a (.failed o c)).raised = e.raised ++ actFaultNotice a c :: more := by
  cases o with
  | none => exact ⟨[], rfl⟩
  | jog => exact ⟨[], rfl⟩
  | safe => exact ⟨[], rfl⟩
  | lane l =>
    unfold Event.takeReport Event.record
    dsimp only
    split <;> exact ⟨[], rfl⟩

/-- An actuator that faults is left as R24 says, and ACT_FAULT is raised. -/
theorem act_faults (v : Env) (a : ActIx) (f : View → Actuator → ActOut) (e : Event) (x : Actuator) (c : ActFault)
    (hf : f (v.view a) (e.m.act a) = x.faultWith (v.view a) c) :
    FaultedWith v.time c x ((e.act v a f).m.act a) ∧ actFaultNotice a c ∈ (e.act v a f).raised := by
  obtain ⟨hs, hr⟩ := faultWith_spec (v.view a) c x
  have h1 := act_self v a f e (by rw [hf]; simp [Actuator.moving, hs.state])
  rw [hf] at h1
  refine ⟨hs.drop h1, ?_⟩
  obtain ⟨_, more, h2⟩ := act_raised v a f e
  rw [h2, hf, hr]
  obtain ⟨m, h3⟩ := takeReport_failed a x.owner c (e.setAct a (x.faultWith (v.view a) c).act)
  rw [h3]
  simp

/-- An actuator that arrives is left at rest at its end. -/
theorem act_arrives (v : Env) (a : ActIx) (f : View → Actuator → ActOut) (e : Event) (x : Actuator) (t : End) (sup : Bool)
    (hf : f (v.view a) (e.m.act a) = x.arrive (v.view a) t sup) :
    ArrivedAt v.time t sup x ((e.act v a f).m.act a) := by
  obtain ⟨hs, _⟩ := arrive_spec (v.view a) t sup x
  have h1 := act_self v a f e (by rw [hf]; simp [Actuator.moving, hs.state])
  rw [hf] at h1
  exact hs.drop h1

end Sys2Proof.Machine
end

