-- ==== Sys2Proof/Laws/Folds.lean ====
section
/-! SUPPORT. One event over many actuators or many lanes, each acting on itself alone. -/

namespace Sys2Proof.Machine

open Sys2Proof.Safety

/-- The notices an actuator's report raises where no lane takes it. -/
def ownNotices (a : ActIx) (o : ActOut) : List Raised :=
  match o.report with
  | .quiet => []
  | .done .jog => [{ cls := .jogDone, source := some a.val, detail := o.act.position.code, tag := none }]
  | .done _ => []
  | .failed _ c => [actFaultNotice a c]

/-- An actuator whose report concerns no lane, or a lane that is not RUNNING, changes itself alone. -/
theorem act_alone (v : Env) (a : ActIx) (f : View → Actuator → ActOut) (e : Event)
    (h : ∀ l, (f (v.view a) (e.m.act a)).report.lane? = some l → (e.m.lane l).state ≠ .running) :
    e.act v a f = { m := e.m.setAct a (f (v.view a) (e.m.act a)).act,
                    raised := e.raised ++ ownNotices a (f (v.view a) (e.m.act a)), started := e.started } := by
  have hrun : ∀ l, (e.m.lane l).state ≠ .running → ((e.m.lane l).state == .running) = false := by
    intro l hl; simpa using hl
  unfold Event.act ownNotices
  generalize f (v.view a) (e.m.act a) = o at h
  cases o with
  | mk x r =>
  cases r with
  | quiet => simp [Report.lane?, Event.takeReport, Event.setAct]
  | done w =>
    cases w with
    | none => simp [Report.lane?, Event.takeReport, Event.setAct]
    | jog => simp [Report.lane?, Event.takeReport, Event.setAct, Event.raise]
    | safe => simp [Report.lane?, Event.takeReport, Event.setAct]
    | lane l =>
      have hl := hrun l (h l rfl)
      simp [Report.lane?, Event.takeReport, Event.setAct, Event.record, Event.actOnResults, hl]
  | failed w c =>
    cases w with
    | none => simp [Report.lane?, Event.takeReport, Event.setAct, Event.raise, actFaultNotice]
    | jog => simp [Report.lane?, Event.takeReport, Event.setAct, Event.raise, actFaultNotice]
    | safe => simp [Report.lane?, Event.takeReport, Event.setAct, Event.raise, actFaultNotice]
    | lane l =>
      have hl := hrun l (h l rfl)
      simp [Report.lane?, Event.takeReport, Event.setAct, Event.raise, actFaultNotice, Event.record,
        Event.actOnResults, hl]

/-- Many actuators act in one event, none with a report for a RUNNING lane: each changes itself alone. -/
theorem foldl_act (v : Env) (f : View → Actuator → ActOut) (xs : List ActIx) (hn : xs.Nodup) : ∀ e : Event,
    (∀ a ∈ xs, ∀ l, (f (v.view a) (e.m.act a)).report.lane? = some l → (e.m.lane l).state ≠ .running) →
    (∀ b, (xs.foldl (fun e a => e.act v a f) e).m.act b =
      if b ∈ xs then (f (v.view b) (e.m.act b)).act else e.m.act b) ∧
    (xs.foldl (fun e a => e.act v a f) e).m.lanes = e.m.lanes ∧
    (xs.foldl (fun e a => e.act v a f) e).m.poolFree = e.m.poolFree ∧
    (xs.foldl (fun e a => e.act v a f) e).m.queue = e.m.queue ∧
    (xs.foldl (fun e a => e.act v a f) e).m.marks = e.m.marks ∧
    (xs.foldl (fun e a => e.act v a f) e).started = e.started ∧
    (xs.foldl (fun e a => e.act v a f) e).raised =
      e.raised ++ xs.flatMap fun a => ownNotices a (f (v.view a) (e.m.act a)) := by
  induction xs with
  | nil => intro e _; simp
  | cons x xs ih =>
    intro e h
    simp only [List.nodup_cons] at hn
    have hx := act_alone v x f e (h x (List.mem_cons_self ..))
    have hact : ∀ b ∈ xs, (e.act v x f).m.act b = e.m.act b := by
      intro b hb
      rw [hx]
      exact act_setAct_ne _ _ _ _ (fun hbx => hn.1 (hbx ▸ hb))
    have hlane : ∀ l, (e.act v x f).m.lane l = e.m.lane l := by intro l; rw [hx]; rfl
    obtain ⟨i1, i2, i3, i4, i5, i6, i7⟩ := ih hn.2 (e.act v x f) (by
      intro a ha l hl
      rw [hact a ha] at hl
      rw [hlane]
      exact h a (List.mem_cons_of_mem _ ha) l hl)
    simp only [List.foldl_cons]
    refine ⟨?_, ?_, ?_, ?_, ?_, ?_, ?_⟩
    · intro b
      rw [i1 b]
      by_cases hb : b ∈ xs
      · simp [hb, hact b hb]
      · by_cases hbx : b = x
        · subst hbx; simp [hb, hx]
        · simp [hb, hbx, hx, act_setAct_ne _ _ _ _ hbx]
    · rw [i2, hx]; rfl
    · rw [i3, hx]; rfl
    · rw [i4, hx]; rfl
    · rw [i5, hx]; rfl
    · rw [i6, hx]
    · rw [i7, hx]
      simp only [List.flatMap_cons, List.append_assoc]
      congr 2
      apply List.flatMap_congr
      intro b hb
      rw [act_setAct_ne _ _ _ _ (show b ≠ x from fun hbx => hn.1 (hbx ▸ hb))]

/-- Many lanes act in one event by `f`, which changes its own lane by `g` and adds to the queue what `q` gives. -/
theorem foldl_lanes (f : LaneIx → Event → Event) (g : LaneIx → Lane → Lane) (q : LaneIx → Lane → List QEntry)
    (hf : ∀ l e, f l e =
      { e with m := { e.m.setLane l (g l (e.m.lane l)) with queue := e.m.queue ++ q l (e.m.lane l) } })
    (xs : List LaneIx) (hn : xs.Nodup) : ∀ e : Event,
    (xs.foldl (fun e l => f l e) e).m.acts = e.m.acts ∧
    (∀ j, (xs.foldl (fun e l => f l e) e).m.lane j = if j ∈ xs then g j (e.m.lane j) else e.m.lane j) ∧
    (xs.foldl (fun e l => f l e) e).m.poolFree = e.m.poolFree ∧
    (xs.foldl (fun e l => f l e) e).m.queue = e.m.queue ++ xs.flatMap (fun l => q l (e.m.lane l)) ∧
    (xs.foldl (fun e l => f l e) e).m.marks = e.m.marks ∧
    (xs.foldl (fun e l => f l e) e).raised = e.raised ∧
    (xs.foldl (fun e l => f l e) e).started = e.started := by
  induction xs with
  | nil => intro e; simp
  | cons x xs ih =>
    intro e
    simp only [List.nodup_cons] at hn
    have hx := hf x e
    have hl : ∀ j, j ≠ x → (f x e).m.lane j = e.m.lane j := by
      intro j hj; rw [hx]; exact lane_setLane_ne _ _ _ _ hj
    obtain ⟨i1, i2, i3, i4, i5, i6, i7⟩ := ih hn.2 (f x e)
    simp only [List.foldl_cons]
    refine ⟨?_, ?_, ?_, ?_, ?_, ?_, ?_⟩
    · rw [i1, hx]; rfl
    · intro j
      rw [i2 j]
      by_cases hjx : j = x
      · subst hjx
        simp only [hn.1, if_false, List.mem_cons, true_or, if_true, hx]
        exact lane_setLane_self _ _ _
      · simp [hjx, hl j hjx]
    · rw [i3, hx]; rfl
    · rw [i4]
      have : (f x e).m.queue = e.m.queue ++ q x (e.m.lane x) := by rw [hx]
      rw [this, List.append_assoc, List.flatMap_cons]
      congr 2
      apply List.flatMap_congr
      intro b hb
      rw [hl b (fun h => hn.1 (h ▸ hb))]
    · rw [i5, hx]; rfl
    · rw [i6, hx]
    · rw [i7, hx]

/-! ## Evaluation of a head -/

/-- A lane that evaluates its head (R43): the lane alone changes, and its head may join the queue. -/
theorem evaluate_eq (v : Env) (l : LaneIx) (e : Event) (h : v.mode = .run ∨ (e.m.lane l).steps ≠ []) :
    e.evaluate v l = { e with m := { e.m.setLane l (evaluatedIn v.mode (e.m.lane l)) with
      queue := e.m.queue ++ entryOf v.mode l (e.m.lane l) } } := by
  unfold Event.evaluate evaluatedIn entryOf
  cases hs : (e.m.lane l).steps with
  | nil =>
    have h1 : evaluatedLane (e.m.lane l) = e.m.lane l := by unfold evaluatedLane; rw [hs]
    have hm : v.mode = .run := h.resolve_right (fun hne => hne hs)
    simp [hm, h1]
  | cons h rest =>
    by_cases hm : v.mode = .run
    · simp only [hm, beq_self_eq_true, if_true]
      cases hc : h.cond with
      | next => simp [Event.joinQueue, hs, joinsAtOnce, hc, evaluatedLane, queuedLane]
      | onInput i b => simp [Event.joinQueue, hs, joinsAtOnce, hc, evaluatedLane, queuedLane]
      | onMark i => simp [Event.joinQueue, hs, joinsAtOnce, hc, evaluatedLane, queuedLane]
      | delay d =>
        by_cases hd : d = 0
        · simp [Event.joinQueue, hs, joinsAtOnce, hc, evaluatedLane, queuedLane, hd]
        · simp [Event.waitHead, Event.setLane, hs, joinsAtOnce, hc, evaluatedLane, hd, mapHead_cons _ _ _ _ hs]
          rfl
      | atTime d =>
        by_cases hd : h.reached = true
        · simp [Event.joinQueue, hs, joinsAtOnce, hc, evaluatedLane, queuedLane, hd]
        · simp [Event.waitHead, Event.setLane, hs, joinsAtOnce, hc, evaluatedLane, hd, mapHead_cons _ _ _ _ hs]
          rfl
    · have : (v.mode == .run) = false := by simpa using hm
      simp [this, hm, Event.waitHead, heldLane, Event.setLane]
      rfl

end Sys2Proof.Machine
end

