-- ==== Sys2Proof/Laws/Operands.lean ====
section
/-! SUPPORT. Reading back what a request's bytes spell: indices, flags and codes, in range and out of it. -/

namespace Sys2Proof.Machine

open Sys2Proof.Safety

/-! ## In range -/

theorem byteOf_toNat (n : Nat) (h : n < 256) : (byteOf n).toNat = n := by
  simp [byteOf, Nat.mod_eq_of_lt h]

theorem indexOf_byteOf (n : Nat) (hn : n ≤ 256) (i : Fin n) : indexOf n (byteOf i.val) = some i := by
  have h := byteOf_toNat i.val (by omega)
  simp [indexOf, h]

theorem flagOf_flagByte (b : Bool) : flagOf (flagByte b) = some b := by cases b <;> rfl

theorem kind_ofCode_code (k : Kind) : Kind.ofCode k.code = some k := by cases k <;> rfl

theorem sensing_ofCode_code (k : Sensing) : Sensing.ofCode k.code = some k := by cases k <;> rfl

theorem action_ofCode_code (k : Action) : Action.ofCode k.code = some k := by cases k <;> rfl

theorem safeAction_ofCode_code (k : SafeAction) : SafeAction.ofCode k.code = some k := by cases k <;> rfl

theorem end_ofCode_code (k : End) : End.ofCode k.code = some k := by cases k <;> rfl

theorem moveTarget_ofCode_byte (t : MoveTarget) : MoveTarget.ofCode (targetByte t) = some t := by cases t <;> rfl

theorem restartLevel_ofCode_code (k : RestartLevel) : RestartLevel.ofCode k.code = some k := by cases k <;> rfl

/-! ## Out of range -/

theorem indexOf_none (n : Nat) (b : Byte) (h : n ≤ b.toNat) : indexOf n b = none := by
  simp [indexOf]; omega

theorem flagOf_none (b : Byte) (h : 1 < b.toNat) : flagOf b = none := by
  unfold flagOf
  have h0 : b ≠ 0 := by rintro rfl; simp at h
  have h1 : b ≠ 1 := by rintro rfl; simp at h
  rw [if_neg h0, if_neg h1]

theorem kind_ofCode_none (b : Byte) (h : 4 < b.toNat) : Kind.ofCode b = none := by
  unfold Kind.ofCode; split <;> first | omega | rfl

theorem sensing_ofCode_none (b : Byte) (h : 3 < b.toNat) : Sensing.ofCode b = none := by
  unfold Sensing.ofCode; split <;> first | omega | rfl

theorem action_ofCode_none (b : Byte) (h : 1 < b.toNat) : Action.ofCode b = none := by
  unfold Action.ofCode; split <;> first | omega | rfl

theorem safeAction_ofCode_none (b : Byte) (h : 3 < b.toNat) : SafeAction.ofCode b = none := by
  unfold SafeAction.ofCode; split <;> first | omega | rfl

theorem end_ofCode_none (b : Byte) (h : 1 < b.toNat) : End.ofCode b = none := by
  unfold End.ofCode; split <;> first | omega | rfl

theorem moveTarget_ofCode_none (b : Byte) (h : 2 < b.toNat) : MoveTarget.ofCode b = none := by
  unfold MoveTarget.ofCode; split <;> first | omega | rfl

theorem faultPolicy_ofCode_none (b : Byte) (h : 1 < b.toNat) : FaultPolicy.ofCode b = none := by
  unfold FaultPolicy.ofCode; split <;> first | omega | rfl

theorem watch_ofCode_none (b : Byte) (h : 3 < b.toNat) : Watch.ofCode b = none := by
  unfold Watch.ofCode; split <;> first | omega | rfl

theorem restartLevel_ofCode_none (b : Byte) (h : 1 < b.toNat) : RestartLevel.ofCode b = none := by
  unfold RestartLevel.ofCode; split <;> first | omega | rfl

/-! ## Two-byte numbers -/

theorem word16_eq (hi lo : Byte) : word16 hi lo = hi ++ lo := rfl

theorem bytes16_word16 (hi lo : Byte) : bytes16 (word16 hi lo) = [hi, lo] := by
  unfold bytes16 word16
  rw [BitVec.extractLsb'_append_eq_left, BitVec.extractLsb'_append_eq_right]

/-- A number of at most 65,535 written as two bytes reads back. -/
theorem word16_bytesOf (n : Nat) (h : n < 65536) :
    ∃ hi lo, bytesOf n = [hi, lo] ∧ (word16 hi lo).toNat = n := by
  refine ⟨_, _, rfl, ?_⟩
  have : word16 ((BitVec.ofNat 16 n).extractLsb' 8 8) ((BitVec.ofNat 16 n).extractLsb' 0 8) = BitVec.ofNat 16 n := by
    unfold word16
    ext i hi
    simp only [BitVec.getElem_append]
    split
    · simp [BitVec.getLsbD_eq_getElem hi]
    · rename_i h8
      simp only [BitVec.getElem_extractLsb']
      rw [show 8 + (i - 8) = i by omega]
      simp [BitVec.getLsbD_eq_getElem hi]
  rw [this]
  simp [Nat.mod_eq_of_lt h]

end Sys2Proof.Machine
end

