-- ==== Sys2Proof/Laws/PerInstr.lean ====
section
/-! SUPPORT. One lemma per command: a well-formed frame command names a request kind of R172, but for UNKNOWN_KIND, and its
payload fits a frame (R153). -/

namespace Sys2Proof.Laws.RequestKind

open Sys2Proof.Safety

/-- What a well-formed command that is a good frame carries: a payload of at most 120 bytes (R153), and a KIND that R172 lists
exactly when the command is not UNKNOWN_KIND (R162). -/
def Statement (c : Instr) : Prop :=
  c.wellFormed = true → ∀ seq kind p, spoken c = some (seq, kind, p) →
    p.length ≤ 120 ∧ (kind ∉ requestKinds ↔ c = .unknownKind seq kind p)

/-- A command that is no frame. -/
theorem of_silent {c : Instr} (h : spoken c = none) : Statement c := by
  intro _ seq kind p hp
  rw [h] at hp
  cases hp

/-- A request command of a listed kind. -/
theorem of_request {c : Instr} {seq kind : Byte} {p : List Byte} (h : spoken c = some (seq, kind, p))
    (hk : kind ∈ requestKinds) (hw : c.wellFormed = true → payloadFits p = true)
    (hn : c ≠ .unknownKind seq kind p) : Statement c := by
  intro hc s k q hq
  rw [h] at hq
  cases hq
  exact ⟨of_decide_eq_true (hw hc), ⟨fun hne => absurd hk hne, fun he => absurd he hn⟩⟩

theorem powerOn : Statement .powerOn := of_silent rfl

theorem resetAsserted : Statement .resetAsserted := of_silent rfl

theorem resetEnd (straps : BitVec 2) : Statement (.resetEnd straps) := of_silent rfl

theorem tick : Statement .tick := of_silent rfl

theorem atTimeReached (lane : LaneIx) (place : Nat) : Statement (.atTimeReached lane place) := of_silent rfl

theorem stepStart : Statement .stepStart := of_silent rfl

theorem gapTimerExpiry (act : ActIx) : Statement (.gapTimerExpiry act) := of_silent rfl

theorem travelTimerExpiry (act : ActIx) : Statement (.travelTimerExpiry act) := of_silent rfl

theorem settleTimerExpiry (act : ActIx) : Statement (.settleTimerExpiry act) := of_silent rfl

theorem pulseTimerExpiry (act : ActIx) : Statement (.pulseTimerExpiry act) := of_silent rfl

theorem delayTimerExpiry (lane : LaneIx) : Statement (.delayTimerExpiry lane) := of_silent rfl

theorem startLimitExpiry (lane : LaneIx) : Statement (.startLimitExpiry lane) := of_silent rfl

theorem inputRawChange (input : InputIx) (level : Bool) : Statement (.inputRawChange input level) := of_silent rfl

theorem stabilityTimerExpiry (input : InputIx) : Statement (.stabilityTimerExpiry input) := of_silent rfl

theorem haltPinChange (level : Bool) : Statement (.haltPinChange level) := of_silent rfl

theorem haltFilterExpiry : Statement .haltFilterExpiry := of_silent rfl

theorem drvfltPinChange (bank : BankIx) (level : Bool) : Statement (.drvfltPinChange bank level) := of_silent rfl

theorem drvfltFilterExpiry (bank : BankIx) : Statement (.drvfltFilterExpiry bank) := of_silent rfl

theorem rxByte (byte : Byte) (framingError : Bool) : Statement (.rxByte byte framingError) := of_silent rfl

theorem interByteGapExpiry : Statement .interByteGapExpiry := of_silent rfl

theorem unknownKind (seq : Byte) (kind : Byte) (payload : List Byte) : Statement (.unknownKind seq kind payload) := by
  intro hc s k q hq
  cases hq
  simp only [Instr.wellFormed, Bool.and_eq_true] at hc
  exact ⟨of_decide_eq_true hc.1, ⟨fun _ => rfl, fun _ => by simpa using hc.2⟩⟩

theorem linkWatchExpiry : Statement .linkWatchExpiry := of_silent rfl

theorem txFrameBegin : Statement .txFrameBegin := of_silent rfl

theorem txFrameEnd : Statement .txFrameEnd := of_silent rfl

theorem restart0TakesEffect (straps : BitVec 2) : Statement (.restart0TakesEffect straps) := of_silent rfl

theorem restart1TakesEffect : Statement .restart1TakesEffect := of_silent rfl

theorem ident (seq : Byte) (payload : List Byte) : Statement (.ident seq payload) :=
  of_request (seq := seq) rfl (by decide) id (by simp)

theorem status (seq : Byte) (payload : List Byte) : Statement (.status seq payload) :=
  of_request (seq := seq) rfl (by decide) id (by simp)

theorem enterSetup (seq : Byte) (payload : List Byte) : Statement (.enterSetup seq payload) :=
  of_request (seq := seq) rfl (by decide) id (by simp)

theorem enterRun (seq : Byte) (payload : List Byte) : Statement (.enterRun seq payload) :=
  of_request (seq := seq) rfl (by decide) id (by simp)

theorem restart (seq : Byte) (payload : List Byte) : Statement (.restart seq payload) :=
  of_request (seq := seq) rfl (by decide) id (by simp)

theorem setTime (seq : Byte) (payload : List Byte) : Statement (.setTime seq payload) :=
  of_request (seq := seq) rfl (by decide) id (by simp)

theorem linkWatch (seq : Byte) (payload : List Byte) : Statement (.linkWatch seq payload) :=
  of_request (seq := seq) rfl (by decide) id (by simp)

theorem actConfig (seq : Byte) (payload : List Byte) : Statement (.actConfig seq payload) :=
  of_request (seq := seq) rfl (by decide) id (by simp)

theorem actRead (seq : Byte) (payload : List Byte) : Statement (.actRead seq payload) :=
  of_request (seq := seq) rfl (by decide) id (by simp)

theorem jog (seq : Byte) (payload : List Byte) : Statement (.jog seq payload) :=
  of_request (seq := seq) rfl (by decide) id (by simp)

theorem actClear (seq : Byte) (payload : List Byte) : Statement (.actClear seq payload) :=
  of_request (seq := seq) rfl (by decide) id (by simp)

theorem inputConfig (seq : Byte) (payload : List Byte) : Statement (.inputConfig seq payload) :=
  of_request (seq := seq) rfl (by decide) id (by simp)

theorem ioRead (seq : Byte) (payload : List Byte) : Statement (.ioRead seq payload) :=
  of_request (seq := seq) rfl (by decide) id (by simp)

theorem linesSet (seq : Byte) (payload : List Byte) : Statement (.linesSet seq payload) :=
  of_request (seq := seq) rfl (by decide) id (by simp)

theorem bankClear (seq : Byte) (payload : List Byte) : Statement (.bankClear seq payload) :=
  of_request (seq := seq) rfl (by decide) id (by simp)

theorem laneConfig (seq : Byte) (payload : List Byte) : Statement (.laneConfig seq payload) :=
  of_request (seq := seq) rfl (by decide) id (by simp)

theorem stepPost (seq : Byte) (payload : List Byte) : Statement (.stepPost seq payload) :=
  of_request (seq := seq) rfl (by decide) id (by simp)

theorem stepCancel (seq : Byte) (payload : List Byte) : Statement (.stepCancel seq payload) :=
  of_request (seq := seq) rfl (by decide) id (by simp)

theorem laneFlush (seq : Byte) (payload : List Byte) : Statement (.laneFlush seq payload) :=
  of_request (seq := seq) rfl (by decide) id (by simp)

theorem lanePause (seq : Byte) (payload : List Byte) : Statement (.lanePause seq payload) :=
  of_request (seq := seq) rfl (by decide) id (by simp)

theorem laneResume (seq : Byte) (payload : List Byte) : Statement (.laneResume seq payload) :=
  of_request (seq := seq) rfl (by decide) id (by simp)

theorem laneAbort (seq : Byte) (payload : List Byte) : Statement (.laneAbort seq payload) :=
  of_request (seq := seq) rfl (by decide) id (by simp)

theorem laneRead (seq : Byte) (payload : List Byte) : Statement (.laneRead seq payload) :=
  of_request (seq := seq) rfl (by decide) id (by simp)

theorem markSet (seq : Byte) (payload : List Byte) : Statement (.markSet seq payload) :=
  of_request (seq := seq) rfl (by decide) id (by simp)

theorem noticeClass (seq : Byte) (payload : List Byte) : Statement (.noticeClass seq payload) :=
  of_request (seq := seq) rfl (by decide) id (by simp)

theorem floorSet (seq : Byte) (payload : List Byte) : Statement (.floorSet seq payload) :=
  of_request (seq := seq) rfl (by decide) id (by simp)

theorem peek (seq : Byte) (payload : List Byte) : Statement (.peek seq payload) :=
  of_request (seq := seq) rfl (by decide) id (by simp)

theorem claim (seq : Byte) (payload : List Byte) : Statement (.claim seq payload) :=
  of_request (seq := seq) rfl (by decide) id (by simp)

theorem close (seq : Byte) (payload : List Byte) : Statement (.close seq payload) :=
  of_request (seq := seq) rfl (by decide) id (by simp)

theorem dismiss (seq : Byte) (payload : List Byte) : Statement (.dismiss seq payload) :=
  of_request (seq := seq) rfl (by decide) id (by simp)

end Sys2Proof.Laws.RequestKind
end

