-- ==== Sys2Proof/Laws/Tick.lean ====
section
/-! SUPPORT. What the count of a tick, the tick's own event and the taking of what is outstanding do, said once. -/

namespace Sys2Proof.Machine

open Sys2Proof.Safety

/-! ## The tick's own event -/

theorem timeUp_eq (l : Lane) : l.timeUp = waitOver l := by
  unfold Lane.timeUp waitOver Lane.head?
  cases l.steps.head? with
  | none => simp
  | some h =>
    cases hc : h.cond <;> simp [Step.awaitsTime, hc]

/-- A lane that joins in the tick's own event changes itself and adds its entry. -/
theorem joinReached_eq (v : Env) (l : LaneIx) (e : Event) : e.joinReached v l =
    { e with m := { e.m.setLane l
        (if v.mode == .run && waitOver (e.m.lane l) then queuedLane (e.m.lane l) else e.m.lane l) with
      queue := e.m.queue ++
        if v.mode == .run && waitOver (e.m.lane l) then headEntry l (e.m.lane l) else [] } } := by
  unfold Event.joinReached
  rw [timeUp_eq]
  by_cases h : (v.mode == Mode.run && waitOver (e.m.lane l)) = true
  · simp only [h, if_true]
    cases hs : (e.m.lane l).steps with
    | nil => simp [waitOver, hs] at h
    | cons f rest => simp [Event.joinQueue, queuedLane, headEntry, hs]
  · simp [h]

/-- The tick's own event: the heads whose wait is over join, and the event ends. -/
theorem ownTick_spec (s : State) : ∃ u, TickTaken s u ∧ After u [] s.ownTick := by
  have hf := foldl_lanes (fun l e => e.joinReached s.env l)
    (fun _ x => if s.env.mode == .run && waitOver x then queuedLane x else x)
    (fun l x => if s.env.mode == .run && waitOver x then headEntry l x else [])
    (fun l e => joinReached_eq s.env l e) allLanes (List.nodup_finRange 4) s.event
  obtain ⟨h1, h2, h3, h4, h5, h6, h7⟩ := hf
  have hm : ∀ l : LaneIx, l ∈ allLanes := fun l => List.mem_finRange l
  have hmode : s.env.mode = s.modes.mode := rfl
  refine ⟨{ s with
      tickOwed := false, motion := (allLanes.foldl (fun e l => e.joinReached s.env l) s.event).m }, ?_, ?_⟩
  · refine ⟨rfl, h1, ?_, ?_, ?_, h5, h3⟩
    · intro l hr hw
      have := h2 l
      simp only [hm, if_true, hmode, hr, beq_self_eq_true, Bool.true_and] at this
      rw [this]
      exact if_pos hw
    · intro l hn
      have := h2 l
      simp only [hm, if_true] at this
      rw [this]
      apply if_neg
      intro hc
      apply hn
      simpa [hmode] using hc
    · show _ = s.motion.queue ++ _
      rw [h4]
      congr 1
      generalize allLanes = xs
      induction xs with
      | nil => rfl
      | cons x xs ih =>
        rw [List.flatMap_cons, ih, List.filter_cons]
        by_cases hx : (s.modes.mode == Mode.run && waitOver (s.motion.lane x)) = true
        · have hx' : (s.env.mode == Mode.run && waitOver (s.event.m.lane x)) = true := hx
          simp only [hx, hx', if_true, List.flatMap_cons]
          rfl
        · have hx' : ¬ (s.env.mode == Mode.run && waitOver (s.event.m.lane x)) = true := hx
          rw [if_neg hx', if_neg hx, List.nil_append]
  · have ha := After.of_close
      { s := { s with tickOwed := false }, e := allLanes.foldl (fun e l => e.joinReached s.env l) s.event } h7
    rw [show (allLanes.foldl (fun e l => e.joinReached s.env l) s.event).raised = [] from h6] at ha
    exact ha

/-! ## The count -/

theorem testReached_eq (now : Time) (h : Step) : h.testReached now = reachedAt now h := by
  unfold Step.testReached reachedAt timeReached
  cases hc : h.cond with
  | atTime t =>
    by_cases ht : (now - t).toNat < 2 ^ 31
    · simp only [ht, decide_true, Bool.or_true, if_true]
    · simp only [ht, decide_false, Bool.or_false, Bool.false_eq_true, if_false]
      cases h
      subst hc
      rfl
  | next => rfl
  | delay d => rfl
  | onInput i b => rfl
  | onMark k => rfl

/-- The count of a tick. -/
theorem count_spec (s : State) : TickCounted s s.count := by
  constructor
  · rfl
  · intro a
    simp [State.count, Motion.testReached, Motion.tick, Motion.act]
    rfl
  · intro l
    simp only [State.count, Motion.testReached, Motion.tick, Motion.lane, mapVec_get]
    unfold laneCounted Lane.tick
    simp only [Lane.mk.injEq, and_true, true_and]
    exact ⟨List.map_congr_left fun h _ => testReached_eq _ h, rfl⟩
  · rfl
  · rfl
  · rfl
  · intro i; simp [State.count]; rfl
  · intro k; simp [State.count]; rfl

/-! ## Expiries that fall on a tick -/

theorem not_due (t : Timer) : Timer.due t = false ↔ ¬ Due t := by
  unfold Timer.due Due
  simp

theorem act_not_due (a : Actuator) : a.anyDue = false ↔
    ¬ Due a.gapTimer ∧ ¬ Due a.travelTimer ∧ ¬ Due a.settleTimer ∧ ∀ p, a.pulse = some p → p.left ≠ 0 := by
  unfold Actuator.anyDue Actuator.pulseDue
  simp only [Bool.or_eq_false_iff, not_due, and_assoc]
  cases a.pulse <;> simp

/-- Nothing is due exactly when no expiry is outstanding. -/
theorem anyDue_iff (s : State) : s.anyDue = false ↔ NothingDue s := by
  unfold State.anyDue NothingDue
  simp only [Bool.or_eq_false_iff, List.any_eq_false, Bool.not_eq_true, not_due, act_not_due, and_assoc]
  simp [allActs, allLanes, allInputs, allBanks]

/-! ## Expiries left outstanding -/

theorem closeIf_operating (p : Bool) (b : Body) (s : State) (hs : Operating s) (hb : Operating b.s) :
    Operating (if p then b.close else s) := by
  split
  · exact close_operating b hb
  · exact hs

theorem haltPart_operating (cause : HaltCause) (cls : NoticeClass) (s : State) (hs : Operating s) :
    Operating (s.haltPart cause cls).s := by unfold State.haltPart; split <;> exact hs

theorem stabilityExpiry_operating (i : InputIx) (s : State) (hs : Operating s) : Operating (s.stabilityExpiry i) := by
  apply closeIf_operating _ _ _ hs
  split <;> exact hs

theorem haltExpiry_operating (s : State) (hs : Operating s) : Operating s.haltExpiry := by
  apply closeIf_operating _ _ _ hs
  unfold State.haltLevel
  dsimp only
  split
  · exact haltPart_operating _ _ _ hs
  · exact hs

theorem drvfltExpiry_operating (k : BankIx) (s : State) (hs : Operating s) : Operating (s.drvfltExpiry k) := by
  apply closeIf_operating _ _ _ hs
  unfold State.drvfltLevel State.driverFault
  dsimp only
  split
  · split <;> exact hs
  · exact hs

theorem gapExpired_operating (s : State) (hs : Operating s) : Operating s.gapExpired := closeIf_operating _ _ _ hs hs

theorem nextOf_running (c : Instr) (f : State → State) (s : State) (hs : s.modes.inReset = none)
    (hx : exec c s = answered (s.live f)) : nextOf s c = f s.shut := by
  unfold nextOf
  rw [hx, live_running f hs]
  rfl

theorem nextOf_live (c : Instr) (f : State → State) (s : State) (hs : Operating s)
    (hx : exec c s = answered (s.live f)) : nextOf s c = f s := by rw [nextOf_running c f s hs.1 hx, shut_closed hs.2]

/-- Commands taken one after another in groups do what the groups' functions do, where each keeps the part operating. -/
theorem foldl_nextOf {ι : Type} (cs : ι → List Instr) (f : State → ι → State)
    (h : ∀ j s, Operating s → (cs j).foldl nextOf s = f s j ∧ Operating (f s j)) (xs : List ι) :
    ∀ s, Operating s → (xs.flatMap cs).foldl nextOf s = xs.foldl f s ∧ Operating (xs.foldl f s) := by
  induction xs with
  | nil => exact fun s hs => ⟨rfl, hs⟩
  | cons x xs ih =>
    intro s hs
    obtain ⟨h1, h2⟩ := h x s hs
    rw [List.flatMap_cons, List.foldl_append, h1]
    exact ih _ h2

theorem actExpiries_eq (a : ActIx) (s : State) (hs : Operating s) :
    [Instr.gapTimerExpiry a, .travelTimerExpiry a, .settleTimerExpiry a, .pulseTimerExpiry a].foldl nextOf s
      = s.actExpiries a ∧ Operating (s.actExpiries a) := by
  have h1 : Operating (s.gapExpiry a) := closeIf_operating _ _ _ hs hs
  have h2 : Operating ((s.gapExpiry a).travelExpiry a) := closeIf_operating _ _ _ h1 h1
  have h3 : Operating (((s.gapExpiry a).travelExpiry a).settleExpiry a) := closeIf_operating _ _ _ h2 h2
  refine ⟨?_, closeIf_operating _ _ _ h3 h3⟩
  simp only [List.foldl_cons, List.foldl_nil]
  rw [nextOf_live _ _ s hs rfl, nextOf_live _ _ _ h1 rfl, nextOf_live _ _ _ h2 rfl, nextOf_live _ _ _ h3 rfl]
  rfl

theorem laneExpiries_eq (l : LaneIx) (s : State) (hs : Operating s) :
    [Instr.delayTimerExpiry l, .startLimitExpiry l].foldl nextOf s = s.laneExpiries l ∧
      Operating (s.laneExpiries l) := by
  have h1 : (s.delayExpiry l).modes.inReset = none := by
    unfold State.delayExpiry
    split
    · split
      · exact hs.1
      · rw [close_modes]; exact hs.1
    · exact hs.1
  have h2 := shut_operating h1
  refine ⟨?_, closeIf_operating _ _ _ h2 h2⟩
  simp only [List.foldl_cons, List.foldl_nil]
  rw [nextOf_live _ _ s hs rfl, nextOf_running _ _ _ h1 rfl]
  rfl

theorem single_eq (c : Instr) (f : State → State) (s : State) (hs : Operating s)
    (hx : exec c s = answered (s.live f)) (hf : Operating (f s)) :
    [c].foldl nextOf s = f s ∧ Operating (f s) := ⟨nextOf_live c f s hs hx, hf⟩

/-- What is outstanding when a tick is counted is taken as its own commands take it, in the order of `expiryCommands`. -/
theorem takeDue_eq (s : State) (hs : Operating s) (ho : s.tickOwed = false) :
    s.takeDue = expiryCommands.foldl nextOf s := by
  obtain ⟨h1, o1⟩ := foldl_nextOf _ _ actExpiries_eq allActs s hs
  obtain ⟨h2, o2⟩ := foldl_nextOf _ _ laneExpiries_eq allLanes _ o1
  obtain ⟨h3, o3⟩ := foldl_nextOf _ _ (fun j s hs => single_eq (.stabilityTimerExpiry j) _ s hs rfl
    (stabilityExpiry_operating j s hs)) allInputs _ o2
  have o4 := haltExpiry_operating _ o3
  obtain ⟨h5, o5⟩ := foldl_nextOf _ _ (fun k s hs => single_eq (.drvfltFilterExpiry k) _ s hs rfl
    (drvfltExpiry_operating k s hs)) allBanks _ o4
  have o6 := gapExpired_operating _ o5
  unfold State.takeDue expiryCommands
  rw [List.map_eq_flatMap, List.map_eq_flatMap, ho]
  simp only [Bool.false_eq_true, if_false, List.foldl_append, List.foldl_cons, List.foldl_nil, h1, h2, h3,
    nextOf_live .haltFilterExpiry _ _ o3 rfl, h5, nextOf_live .interByteGapExpiry _ _ o5 rfl,
    nextOf_live .linkWatchExpiry _ _ o6 rfl]

end Sys2Proof.Machine
end

