-- ==== Sys2Proof/Tests/Slice0.lean ====
section
/-! SUPPORT. Tests: an ill-formed command for each check, small steps from small states, and one witness for the hypotheses of
each statement of Certificates/Slice0/Obligations.lean. -/

set_option Elab.async false

namespace Sys2Proof.Tests

open Sys2Proof.Machine Sys2Proof.Safety

/-! ## Well-formedness: one ill-formed command for each check -/

theorem test_long_payload_refused : (Instr.unknownKind 1 0x77 (List.replicate 121 0)).wellFormed = false := by decide +kernel

theorem test_longest_payload_taken : (Instr.unknownKind 1 0x77 (List.replicate 120 0)).wellFormed = true := by decide +kernel

theorem test_long_request_refused : (Instr.stepPost 1 (List.replicate 121 0)).wellFormed = false := by decide +kernel

theorem test_known_kind_refused : (Instr.unknownKind 1 0x01 []).wellFormed = false := by decide

theorem test_attention_kind_is_unknown : (Instr.unknownKind 1 0x7F []).wellFormed = true := by decide

theorem test_place_refused : (Instr.atTimeReached 0 32).wellFormed = false := by decide

theorem test_place_taken : (Instr.atTimeReached 0 31).wellFormed = true := by decide

/-! ## Small states -/

/-- The part after reset with one actuator given. -/
def withAct (a : ActIx) (x : Actuator) (s : State) : State := { s with motion := s.motion.setAct a x }

/-- One lane given. -/
def withLane (l : LaneIx) (x : Lane) (s : State) : State := { s with motion := s.motion.setLane l x }

def withQueue (q : List QEntry) (s : State) : State := { s with motion := { s.motion with queue := q } }

def inMode (m : Mode) (s : State) : State := { s with modes := { s.modes with mode := m } }

def withLatch (k : BankIx) (s : State) : State := { s with latches := setVec s.latches k true }

def withInput (i : InputIx) (x : Input) (s : State) : State := { s with inputs := setVec s.inputs i x }

def withHalt (f : FixedLine) (s : State) : State := { s with haltIn := f }

def withDrvflt (k : BankIx) (f : FixedLine) (s : State) : State := { s with drvflt := setVec s.drvflt k f }

def withLink (f : Link → Link) (s : State) : State := { s with link := f s.link }

def withNotices (f : NoticeUnit → NoticeUnit) (s : State) : State := { s with notices := f s.notices }

/-- A two-coil valve at rest at R, sensed on both sides. -/
def valve : Actuator :=
  { Actuator.default with
    cfg := { ActConfig.default with kind := .doubleHeld }
    state := .rest, position := .r, supervised := true }

/-- The valve under way toward X. -/
def underWay (st : ActState) (o : Owner) : Actuator :=
  { valve with state := st, target := some .x, owner := o, supervised := false, lineA := st != .gap }

/-- A step that extends actuator 0. -/
def oneMove : Machine.Step :=
  { tag := 7, cond := .next, startLimit := 0, report := true, recirculate := false, cycleEnd := false, mark := some 1
    moves := [{ act := 0, target := .extend }], run := .held, results := [], startTime := none, firstFailed := none
    reached := false }

/-- The step under way. -/
def running : Machine.Step := { oneMove with run := .running, results := [(0, .pending)], startTime := some 0 }

def laneWith (st : LaneState) (steps : List Machine.Step) : Lane := { Lane.default with state := st, steps := steps }

def record (id : NoticeId) (p : Fin 8) : Notice :=
  { id := id, cls := .watch, source := some 0, priority := p, nest := false, detail := 0, firstTime := 0, lastTime := 0
    count := 1, tags := none }

/-- The state a command leaves. -/
def after (c : Instr) (s : State) : State := nextOf s c

/-- A state whose link is as reset leaves it, with no reset and no restart under way, takes every request. -/
theorem takes_fresh {s : State} (h : s.link = Link.default 0) (hi : Operating s)
    (hp : s.modes.pendingRestart = none) (seq : Byte) : Takes s seq := by
  refine ⟨hi, hp, ?_, ?_⟩ <;> rw [h]
  · decide
  · intro r hr; cases hr

/-! ## Single steps, with values from the spec -/

theorem test_crc : crcOf [0x31, 0x32, 0x33, 0x34, 0x35, 0x36, 0x37, 0x38, 0x39] = 0x29B1 := by decide +kernel

theorem test_status_request_frame : frameOf 1 2 [] = [0xC5, 0x00, 0x01, 0x02, 0xDF, 0xEF] := by decide +kernel

theorem test_ident : (after (.ident 1 []) .reset).link.replies =
    [frameOf 1 0x81 [0, 0x6E, 0x01, 16, 4, 64, 32, 8]] := by decide +kernel

theorem test_status : (after (.status 1 []) .reset).link.replies = [frameOf 1 0x82
    [0, 0, 0xFF, 0, 0, 0, 0, 0, 0, 0, 64, 0, 0, 0, 0, 0, 0, 0, 0, 0, 0]] := by decide +kernel

theorem test_received_request_is_executed :
    (after (.rxByte 0xEF false) (after (.rxByte 0xDF false) (after (.rxByte 0x02 false) (after (.rxByte 0x01 false)
      (after (.rxByte 0x00 false) (after (.rxByte 0xC5 false) .reset)))))).link.replies =
    (after (.status 1 []) .reset).link.replies := by decide +kernel

theorem test_act_config : ((after (.actConfig 1 [2, 2, 0, 3, 0x20, 0, 0x32, 0, 0x14, 0, 0x14, 1, 1, 3, 2, 1, 0, 0, 1])
    .reset).motion.act 2).cfg =
    { kind := .doubleHeld, sensing := .both, travelLimit := 800, settleTime := 50, crossoverGap := 20, pulseLength := 20
      faultAction := .release, stopAction := .release, safeAction := .retract
      guards := [{ other := 1, required := .x }, { other := 0, required := .r }] } := by decide +kernel

theorem test_act_config_kind_above_4 : (after (.actConfig 1 [2, 5, 0, 3, 0x20, 0, 0x32, 0, 0x14, 0, 0x14, 1, 1, 3, 0])
    .reset).link.replies = [frameOf 1 0x90 [3]] := by decide +kernel

theorem test_input_config_watch_above_3 : (after (.inputConfig 1 [0, 5, 1, 4]) .reset).link.replies =
    [frameOf 1 0x98 [3]] := by decide +kernel

theorem test_jog : let t := after (.jog 1 [0, 0, 0]) (withAct 0 valve .reset)
    ((t.motion.act 0).state, (t.motion.act 0).owner, (t.motion.act 0).lineA, (t.motion.act 0).travelTimer) =
      (.travel, .jog, true, some 20) := by decide +kernel

theorem test_step_post_starts_in_run :
    let t := after (.stepPost 1 [0, 0, 7, 0, 0, 0, 0, 0, 0, 0, 1, 1, 1, 0, 0]) (inMode .run (withAct 0 valve .reset))
    ((t.motion.lane 0).state, (t.motion.act 0).owner, t.motion.poolFree, t.motion.queue) =
      (.running, .lane 0, 63, []) := by decide +kernel

theorem test_settle_completes_the_step :
    let t := after (.settleTimerExpiry 0) (inMode .run (withLane 0 (laneWith .running [running])
      (withAct 0 { underWay .settle (.lane 0) with settleTimer := some 0 } .reset)))
    ((t.motion.lane 0).state, (t.motion.act 0).position, t.motion.mark 1, t.notices.waiting.map (·.cls), t.notices.attn) =
      (.empty, .x, true, [.stepDone], true) := by decide +kernel

theorem test_timeout_fails_the_step :
    let t := after (.travelTimerExpiry 0) (inMode .run (withLane 0 (laneWith .running [running])
      (withAct 0 { underWay .travel (.lane 0) with travelTimer := some 0 } .reset)))
    ((t.motion.lane 0).fault, (t.motion.lane 0).failedAct, (t.motion.act 0).fault, (t.motion.act 0).lineA,
        t.notices.waiting.map fun r => (r.cls, r.id)) =
      (some .moveFailed, some 0, some .timeout, false, [(.actFault, 1), (.laneFault, 2)]) := by decide +kernel

theorem test_halt_retracts :
    let t := after .haltFilterExpiry (inMode .run (withHalt { pin := false, active := false, timer := some 0 }
      (withAct 0 { valve with cfg := { valve.cfg with safeAction := .retract }, position := .x } .reset)))
    (t.modes.mode, t.modes.haltCause, (t.motion.act 0).owner, (t.motion.act 0).lineB, t.notices.waiting.map (·.cls)) =
      (.halted, some .haltLine, .safe, true, [.halt]) := by decide +kernel

theorem test_driver_fault : let t := after (.drvfltFilterExpiry 0) (withDrvflt 0
      { pin := false, active := false, timer := some 0 } (withAct 0 (underWay .travel .jog) .reset))
    (t.latches.get 0, (t.motion.act 0).fault, t.notices.waiting.map (·.cls)) =
      (true, some .drive, [.drive, .actFault]) := by decide +kernel

theorem test_claim : let t := after (.claim 1 []) (withNotices (fun u => { u with waiting := [record 4 5] }) .reset)
    (t.notices.waiting, t.notices.stack) = ([], [record 4 5]) := by decide +kernel

/-- A head that may start stays queued through a refused request (R175) and starts at the next tick (R77). -/
theorem test_refused_request_starts_no_step :
    let s := withQueue [{ lane := 0, limit := none }]
      (inMode .run (withLane 0 (laneWith .queued [oneMove]) (withAct 0 valve .reset)))
    (after (.jog 1 [0, 0, 0]) s).motion = s.motion ∧ (after (.jog 1 [0, 0, 0]) s).link.replies = [frameOf 1 0x92 [4]] ∧
      ((after .tick (after (.jog 1 [0, 0, 0]) s)).motion.lane 0).state = .running := by decide +kernel

/-- On one tick the time of lane 0 is reached and the delay of lane 1 ends: either joins first (R68). -/
def bothJoin : State :=
  after .tick (withLane 1 { laneWith .waiting [{ oneMove with cond := .delay 1 }] with delayTimer := some 1 }
    (inMode .run (withLane 0 (laneWith .waiting [{ oneMove with cond := .atTime 1 }])
      (withAct 0 { valve with state := .faulted } .reset))))

theorem test_either_joins_first :
    ((after (.atTimeReached 0 0) (after (.delayTimerExpiry 1) bothJoin)).motion.queue.map (·.lane),
      (after (.delayTimerExpiry 1) (after (.atTimeReached 0 0) bothJoin)).motion.queue.map (·.lane)) =
      ([1, 0], [0, 1]) := by decide +kernel

/-- A head that R77 has held back, and a halt on the next tick: either is taken first (R70). -/
def haltNears : State :=
  after .tick (withHalt { pin := false, active := false, timer := some 1 } (withQueue [{ lane := 0, limit := none }]
    (inMode .run (withLane 0 (laneWith .queued [oneMove]) (withAct 0 valve .reset)))))

theorem test_start_or_halt_first :
    ((((after .haltFilterExpiry haltNears).motion.lane 0).state, ((after .stepStart haltNears).motion.lane 0).state),
      ((after .haltFilterExpiry (after .stepStart haltNears)).motion.lane 0).fault) =
      ((.waiting, .running), some .halted) := by decide +kernel

/-- The delay of the head of lane 0 has run out, and its actuator is free. -/
def delayOver : State :=
  inMode .run (withLane 0 { laneWith .waiting [{ oneMove with cond := .delay 1 }] with delayTimer := some 0 }
    (withAct 0 valve .reset))

/-- A delay expiry and a pause, a cancel or a flush that fall together leave the head out of the queue in either order
(R44). -/
theorem test_delay_and_pause_together :
    let s := after (.delayTimerExpiry 0) delayOver
    (s.motion.lane 0).state = .queued ∧
      (after (.lanePause 1 [0]) s).motion = (after (.lanePause 1 [0]) delayOver).motion ∧
      (after (.stepCancel 1 [0, 0, 7]) s).motion = (after (.stepCancel 1 [0, 0, 7]) delayOver).motion ∧
      (after (.laneFlush 1 [0]) s).motion = (after (.laneFlush 1 [0]) delayOver).motion ∧
      ((after (.lanePause 1 [0]) s).motion.lane 0).state = .paused := by decide +kernel

/-- Every other command finds the head started by the expiry's event (R75). -/
theorem test_delay_expiry_starts_the_head :
    ∀ c ∈ [Instr.stepStart, .tick, .laneRead 1 [0], .lanePause 1 [1], .stepCancel 1 [0, 0, 8]],
      ((after c (after (.delayTimerExpiry 0) delayOver)).motion.lane 0).state = .running := by decide +kernel

theorem test_tick_advances_time : (after .tick .reset).time = 1 := by decide +kernel

theorem test_queue_is_first_in_first_out :
    step { State.reset with pending := [.floorSet 1 [3], .tick] } =
      exec (.floorSet 1 [3]) { State.reset with pending := [.tick] } := rfl

theorem test_no_table_word_is_a_command : decodeTableWord 8 0 = none := rfl


/-! ## Witnesses: the hypotheses of each statement are met, clause by clause -/

/-- A sensor of an actuator seen active. -/
def seeing (a : ActIx) (e : End) (s : State) : State :=
  withInput (match e with | .x => xInput a | .r => rInput a) (Input.default true) s

/-- The valve, actuator 0, under way toward X with one timer due. -/
def dueIn (st : ActState) (o : Owner) : State :=
  withAct 0 { underWay st o with
    gapTimer := if st = .gap then some 0 else none
    travelTimer := if st = .travel then some 0 else none
    settleTimer := if st = .settle then some 0 else none } .reset

/-- A restart of a level pending, its reply in transmission. -/
def restarting (level : Byte) : State := after (.restart 1 [level]) (withAct 0 valve .reset)

/-- The receiver in a state. -/
def receiving (st : RxState) : State := withLink (fun k => { k with rx := { Receiver.hunt with state := st } }) .reset

/-- A lane 0 that holds the step of `oneMove`, in a state and a mode. -/
def holding (m : Mode) (st : LaneState) (steps : List Machine.Step) : State :=
  inMode m (withLane 0 (laneWith st steps) (withAct 0 valve .reset))

/-- A step that waits for a time. -/
def timed (t : Time) : Machine.Step := { oneMove with cond := .atTime t }

theorem takes_reset (seq : Byte) : Takes .reset seq := takes_fresh rfl ⟨rfl, rfl⟩ rfl seq

theorem takes_holding (m : Mode) (st : LaneState) (steps : List Machine.Step) (seq : Byte) :
    Takes (holding m st steps) seq := takes_fresh rfl ⟨rfl, rfl⟩ rfl seq

theorem takes_withAct (a : ActIx) (x : Actuator) (m : Mode) (seq : Byte) : Takes (inMode m (withAct a x .reset)) seq :=
  takes_fresh rfl ⟨rfl, rfl⟩ rfl seq

theorem witness_StepTakesTheFrontCommand :
    ({ State.reset with pending := [.tick] }.pending = [Instr.tick]) ∧ State.reset.pending = [] := by decide

theorem witness_PowerOnAndResetPinHoldThePart :
    State.reset.modes.inReset ≠ some .power ∧ (after .powerOn .reset).modes.inReset = some .power := by decide +kernel

theorem witness_NothingElseActsDuringAReset :
    (after .powerOn .reset).modes.inReset ≠ none ∧ (after .resetAsserted .reset).modes.inReset ≠ none ∧
      actsInReset .tick = false := by decide +kernel

theorem witness_DefaultingResetsGiveDefaultValues :
    (after .powerOn .reset).modes.inReset = some .power ∧ (after .resetAsserted .reset).modes.inReset = some .pin ∧
      Operating State.reset ∧
      Operating (restarting 0) ∧ (restarting 0).modes.pendingRestart = some .level0 ∧
      (restarting 0).link.replySending = true ∧ (restarting 0).link.replies.length = 1 := by decide +kernel

theorem witness_RestartOneKeepsTheConfiguration :
    Operating (restarting 1) ∧ (restarting 1).modes.pendingRestart = some .level1 ∧
      (restarting 1).link.replySending = true ∧ (restarting 1).link.replies.length = 1 ∧
      ((restarting 1).motion.act 0).managed = true ∧ ((restarting 1).motion.act 15).managed = false := by decide +kernel

theorem witness_RestartAndLinkWatchTakeTheirOperand :
    Takes .reset 1 ∧ RestartLevel.code .level0 = 0 ∧ RestartLevel.code .level1 = 1 ∧ 1 < (2 : Byte).toNat ∧
      ((0 : Byte) ++ (0 : Byte) : BitVec 16).toNat = 0 ∧ ((0 : Byte) ++ (1 : Byte) : BitVec 16).toNat = 1 ∧
      ((0 : Byte) ++ (49 : Byte) : BitVec 16).toNat = 49 ∧ ((0 : Byte) ++ (50 : Byte) : BitVec 16).toNat = 50 ∧
      ((0x27 : Byte) ++ (0x10 : Byte) : BitVec 16).toNat = 10000 ∧
      10000 < ((0x27 : Byte) ++ (0x11 : Byte) : BitVec 16).toNat := ⟨takes_reset 1, by decide⟩

/-- A tick on which lane 0's time is reached, with a travel timer and a start limit of `n` ticks left. -/
def timeNears (n : Nat) : State :=
  withQueue [{ lane := 2, limit := some n }] (withLane 0 (laneWith .waiting [timed 1]) (inMode .run
    (withAct 0 { underWay .travel .jog with travelTimer := some n } .reset)))

theorem nothingDue_timeNears : ∀ n ∈ [1, 2], NothingDue (timeNears n) := by
  intro n hn
  rw [← anyDue_iff]
  revert n; decide +kernel

/-- With one tick left the expiries fall on the tick; with two they do not; and the event of the tick is then outstanding. -/
theorem witness_ATickCountsTimeAndTimers :
    (∀ n ∈ [1, 2], Operating (timeNears n) ∧ NothingDue (timeNears n) ∧ (timeNears n).tickOwed = false ∧
      (timeNears n).modes.mode = .run ∧ waitOver ((timeNears n).count.motion.lane 0) = true ∧
      (NothingDue (timeNears n).count ↔ n = 2)) ∧
      Operating (after .tick (timeNears 1)) ∧ (after .tick (timeNears 1)).tickOwed = true := by
  refine ⟨fun n hn => ⟨⟨rfl, rfl⟩, nothingDue_timeNears n hn, ?_⟩, ?_⟩
  · rw [← anyDue_iff]
    revert n; decide +kernel
  · decide +kernel

/-- An expiry outstanding on actuator 0, and a travel timer of actuator 1 with `n` ticks left. -/
def leftOver (n : Nat) : State :=
  withAct 1 { underWay .travel .jog with travelTimer := some n } (dueIn .travel .jog)

/-- The outstanding expiry is taken first; the next tick then brings an expiry of its own, or none. -/
theorem witness_ATickCountsTimeAndTimers_outstanding : ∀ n ∈ [1, 2],
    let s := inMode .run (leftOver n)
    let t := expiryCommands.foldl nextOf s
    Operating s ∧ s.tickOwed = false ∧ ¬ NothingDue s ∧ (t.motion.act 0).state = .faulted ∧ t.modes.mode = .run ∧
      (NothingDue t.count ↔ n = 2) := by
  intro n hn
  have hs : Operating (inMode .run (leftOver n)) := ⟨rfl, rfl⟩
  dsimp only
  rw [← takeDue_eq _ hs rfl, ← anyDue_iff, ← anyDue_iff]
  refine ⟨hs, rfl, ?_⟩
  clear hs
  revert n; decide +kernel

theorem witness_TimersExpireAndTimesAreReached : let s := State.reset
    (∀ a, (s.motion.act a).gapTimer ≠ some 0 ∧ (s.motion.act a).travelTimer ≠ some 0 ∧
      (s.motion.act a).settleTimer ≠ some 0 ∧ (s.motion.act a).pulse = none) ∧
      (∀ l, (s.motion.lane l).delayTimer ≠ some 0) ∧ s.motion.queue = [] ∧ (∀ i, (s.inputs.get i).timer ≠ some 0) ∧
      s.haltIn.timer ≠ some 0 ∧ (∀ k, (s.drvflt.get k).timer ≠ some 0) ∧ s.link.rx.gapTimer ≠ some 0 ∧
      s.link.watchTimer ≠ some 0 ∧ timeReached (5 + BitVec.ofNat 32 (2 ^ 31 - 1)) 5 = true ∧
      timeReached (5 + BitVec.ofNat 32 (2 ^ 31)) 5 = false ∧ timeReached 4 5 = false := by decide +kernel

theorem witness_AtTimeReachedSetsTheIndicator :
    (∀ m ∈ [Mode.setup, .run], let s := holding m .waiting [timed 0, timed 0]
      Operating s ∧ (s.motion.lane 0).steps[0]? = some (timed 0) ∧ (s.motion.lane 0).steps[1]? = some (timed 0) ∧
        (timed 0).reached = false ∧ (s.time - 0).toNat < 2 ^ 31 ∧ (s.motion.lane 0).state = .waiting ∧
        s.modes.mode = m) := by decide +kernel

theorem witness_AtTimeReachedSetsTheIndicator_outstanding :
    let s := after .tick (timeNears 1)
    Operating s ∧ s.tickOwed = true ∧ s.modes.mode = .run ∧ (s.motion.lane 0).state = .waiting ∧
      (s.motion.lane 0).steps = [{ timed 1 with reached := true }] ∧ (timed 1).cond = .atTime 1 := by
  decide +kernel

/-- The four clauses of GAP_TIMER_EXPIRY: no sensor, the target's, the target's with a settle time, both. -/
theorem witness_GapExpiryEntersTravel :
    (∀ f ∈ [id, seeing 0 .x, fun s => seeing 0 .x (seeing 0 .r s)], let s := f (dueIn .gap .jog)
      Operating s ∧ (s.motion.act 0).gapTimer = some 0 ∧ (s.motion.act 0).state = .gap ∧
        (s.motion.act 0).target = some .x ∧ (s.motion.act 0).cfg.kind.double = true ∧
        (s.motion.act 0).cfg.settleTime = 0) ∧
      ¬ sensed ((dueIn .gap .jog).env.view 0) .x valve ∧
      sensed ((seeing 0 .x (dueIn .gap .jog)).env.view 0) .x valve ∧
      ¬ conflicting ((seeing 0 .x (dueIn .gap .jog)).env.view 0) valve ∧
      conflicting ((seeing 0 .x (seeing 0 .r (dueIn .gap .jog))).env.view 0) valve ∧
      (let x := { underWay .gap .jog with gapTimer := some 0, cfg := { valve.cfg with settleTime := 1 } }
       let s := seeing 0 .x (withAct 0 x .reset)
       sensed (s.env.view 0) .x (s.motion.act 0) ∧ ¬ conflicting (s.env.view 0) (s.motion.act 0) ∧
         (s.motion.act 0).cfg.settleTime ≠ 0 ∧ (s.motion.act 0).gapTimer = some 0) := by
  unfold sensed conflicting; decide +kernel

theorem witness_TravelExpiryFaultsOrArrives :
    (let s := dueIn .travel .jog
     Operating s ∧ (s.motion.act 0).travelTimer = some 0 ∧ (s.motion.act 0).target = some .x ∧
       (s.motion.act 0).state = .travel ∧ (s.motion.act 0).cfg.sensing.has .x = true) ∧
      (let x := { underWay .travel .jog with travelTimer := some 0, cfg := { valve.cfg with sensing := .rOnly } }
       let s := withAct 0 x .reset
       (s.motion.act 0).travelTimer = some 0 ∧ (s.motion.act 0).cfg.sensing.has .x = false ∧
         sensed ((seeing 0 .r s).env.view 0) .r x ∧ ¬ sensed (s.env.view 0) .r x) ∧
      (let s := withAct 0 { underWay .settle .jog with travelTimer := some 0 } .reset
       (s.motion.act 0).state = .settle ∧ (s.motion.act 0).travelTimer = some 0) := by
  unfold sensed; decide +kernel

theorem witness_SettleAndPulseExpiries :
    (∀ o ∈ [Owner.jog, .safe, .lane 3], let s := dueIn .settle o
      Operating s ∧ (s.motion.act 0).settleTimer = some 0 ∧ (s.motion.act 0).state = .settle ∧
        (s.motion.act 0).target = some .x ∧ (s.motion.act 0).owner = o) ∧
      (let s := withAct 0 { underWay .travel .jog with pulse := some { coil := .x, left := 0 } } .reset
       Operating s ∧ (s.motion.act 0).pulse = some { coil := .x, left := 0 }) := by decide +kernel

theorem witness_TheLastDoneMoveCompletesTheStep :
    ∀ pause ∈ [false, true],
      let s := withLane 0 { laneWith .running [running] with pausePending := pause } (dueIn .settle (.lane 0))
      Operating s ∧ (s.motion.act 0).settleTimer = some 0 ∧ (s.motion.act 0).state = .settle ∧
        (s.motion.act 0).target = some .x ∧ (s.motion.act 0).owner = .lane 0 ∧ (s.motion.lane 0).state = .running ∧
        (s.motion.lane 0).steps = [running] ∧ (∃ mv ∈ running.moves, mv.act = 0) ∧
        (∀ p ∈ running.results, p.1 ≠ 0 → p.2 = .done) ∧ running.firstFailed = none ∧ running.report = true ∧
        running.cycleEnd = false ∧ running.recirculate = false ∧ (s.motion.lane 0).pausePending = pause := by
  decide +kernel

/-- A completion that reaches the cycle stop, and one that leaves the lane EMPTY with its empty notice on. -/
theorem witness_TheLastDoneMoveCompletesTheStep_notices :
    ∀ c ∈ [(1, [NoticeClass.stepDone, .cycle]), (2, [.stepDone, .laneEmpty]), (0, [.stepDone, .laneEmpty])],
      let h : Machine.Step := { running with cycleEnd := true }
      let l : Lane := { laneWith .running [h] with cycleStop := BitVec.ofNat 16 c.1, emptyNotice := true }
      let s := withLane 0 l (dueIn .settle (.lane 0))
      (s.motion.lane 0).steps = [h] ∧ (∀ p ∈ h.results, p.1 ≠ 0 → p.2 = .done) ∧ h.firstFailed = none ∧
        (completionNotices s.modes.mode 0 h [] l).map (·.cls) = c.2 ∧
        (after (.settleTimerExpiry 0) s).notices.waiting.map (·.cls) = c.2 := by decide +kernel

/-- The last move of a step ends beside an earlier failure, and one move ends with another under way. -/
def endingTwo (p : FaultPolicy) (r : MoveResult) (f : Option ActIx) : Machine.Step × State :=
  let h : Machine.Step :=
    { running with
      moves := [{ act := 0, target := .extend }, { act := 1, target := .extend }, { act := 2, target := .extend }]
      results := [(0, .pending), (1, r), (2, if f.isSome then .failed else .done)]
      firstFailed := f }
  (h, withLane 0 { laneWith .running [h] with policy := p } (withAct 1 (underWay .travel (.lane 0)) (dueIn .settle (.lane 0))))

theorem witness_TheLastDoneMoveCompletesTheStep_others :
    ∀ c ∈ [(FaultPolicy.finishOthers, MoveResult.pending, some 2), (.stopAll, .pending, none), (.finishOthers, .done, some 2)],
      let h := (endingTwo c.1 c.2.1 c.2.2).1
      let s := (endingTwo c.1 c.2.1 c.2.2).2
      Operating s ∧ (s.motion.act 0).settleTimer = some 0 ∧ (s.motion.act 0).state = .settle ∧
        (s.motion.act 0).target = some .x ∧ (s.motion.act 0).owner = .lane 0 ∧ (s.motion.lane 0).state = .running ∧
        (s.motion.lane 0).steps = [h] ∧ (∃ mv ∈ h.moves, mv.act = 0) ∧
        (if c.2.1 = .pending then (∃ p ∈ h.results, p.1 ≠ 0 ∧ p.2 = .pending) ∧
            ((s.motion.lane 0).policy = .finishOthers ∨ ∀ p ∈ h.results, p.1 ≠ 0 → p.2 ≠ .failed)
          else (∀ p ∈ h.results, p.1 ≠ 0 → p.2 ≠ .pending) ∧ ∃ p ∈ h.results, p.1 ≠ 0 ∧ p.2 = .failed) := by
  decide +kernel

theorem witness_TheLastFailedMoveFailsTheStep :
    let s := withLane 0 (laneWith .running [running]) (dueIn .travel (.lane 0))
    Operating s ∧ (s.motion.act 0).travelTimer = some 0 ∧ (s.motion.act 0).state = .travel ∧
      (s.motion.act 0).target = some .x ∧ (s.motion.act 0).cfg.sensing.has .x = true ∧
      (s.motion.act 0).owner = .lane 0 ∧ (s.motion.lane 0).state = .running ∧ (s.motion.lane 0).steps = [running] ∧
      (0, MoveResult.pending) ∈ running.results ∧ (∀ p ∈ running.results, p.1 ≠ 0 → p.2 ≠ .pending) ∧
      running.firstFailed = none := by decide +kernel

/-- A timeout beside an earlier failure: the failed actuator stays the first. -/
theorem witness_TheLastFailedMoveFailsTheStep_earlier_failure :
    let h : Machine.Step := { running with
      moves := [{ act := 0, target := .extend }, { act := 1, target := .extend }]
      results := [(0, .pending), (1, .failed)]
      firstFailed := some 1 }
    let s := withLane 0 { laneWith .running [h] with policy := .finishOthers } (dueIn .travel (.lane 0))
    Operating s ∧ (s.motion.act 0).travelTimer = some 0 ∧ (s.motion.act 0).state = .travel ∧
      (s.motion.act 0).target = some .x ∧ (s.motion.act 0).cfg.sensing.has .x = true ∧
      (s.motion.act 0).owner = .lane 0 ∧ (s.motion.lane 0).state = .running ∧ (s.motion.lane 0).steps = [h] ∧
      (0, MoveResult.pending) ∈ h.results ∧ (∀ p ∈ h.results, p.1 ≠ 0 → p.2 ≠ .pending) ∧
      ((after (.travelTimerExpiry 0) s).motion.lane 0).failedAct = some 1 := by decide +kernel

/-- A step under way on actuators 0 and 1, and one not started. -/
def runningTwo : Machine.Step :=
  { running with
    moves := [{ act := 0, target := .extend }, { act := 1, target := .extend }]
    results := [(0, .pending), (1, .pending)] }

/-- A lane whose step of two moves is under way, actuator 0 at the end of its travel limit. -/
def failingTwo (p : FaultPolicy) : State :=
  withLane 0 { laneWith .running [runningTwo] with policy := p }
    (withAct 1 (underWay .travel (.lane 0)) (dueIn .travel (.lane 0)))

theorem witness_TheLastFailedMoveFailsTheStep_others_pending :
    ∀ p ∈ [FaultPolicy.finishOthers, .stopAll], let s := failingTwo p
      Operating s ∧ (s.motion.act 0).travelTimer = some 0 ∧ (s.motion.act 0).state = .travel ∧
        (s.motion.act 0).target = some .x ∧ (s.motion.act 0).cfg.sensing.has .x = true ∧
        (s.motion.act 0).owner = .lane 0 ∧ (s.motion.lane 0).state = .running ∧
        (s.motion.lane 0).steps = [runningTwo] ∧ (0, MoveResult.pending) ∈ runningTwo.results ∧
        (1 : ActIx) ≠ 0 ∧ (1, MoveResult.pending) ∈ runningTwo.results ∧ (s.motion.act 1).moving = true ∧
        (s.motion.lane 0).policy = p := by decide +kernel

theorem witness_DelayAndStartLimitExpiries :
    (Operating delayOver ∧ delayOver.modes.mode = .run ∧ (delayOver.motion.lane 0).state = .waiting ∧
       (delayOver.motion.lane 0).steps = [{ oneMove with cond := .delay 1 }] ∧
       (delayOver.motion.lane 0).delayTimer = some 0) ∧
      (let s := after (.delayTimerExpiry 0) delayOver
       s.modes.inReset = none ∧ s.openEnd = some 0 ∧
         (s.motion.lane 0).steps = [{ oneMove with cond := .delay 1, run := .queued }]) ∧
      (let s := withQueue [{ lane := 3, limit := some 0 }] (withLane 3 (laneWith .queued [oneMove]) .reset)
       Operating s ∧ { lane := 3, limit := some 0 } ∈ s.motion.queue ∧
         (s.motion.lane 3).steps = [oneMove]) := by decide +kernel

/-- A pause and a flush of the lane and a cancel of its head's tag take the head out; a tick does not. -/
theorem witness_DelayAndStartLimitExpiries_together :
    let s := after (.delayTimerExpiry 0) delayOver
    (∀ c ∈ [Instr.lanePause 1 [0], .laneFlush 1 [0]], TakesHeadOut s 0 c) ∧ TakesHeadOut s 0 (.stepCancel 1 [0, 0, 7]) ∧
      ¬ TakesHeadOut s 0 .tick := by
  have hs : ((after (.delayTimerExpiry 0) delayOver).motion.lane 0).steps =
      [{ oneMove with cond := .delay 1, run := .queued }] := by decide +kernel
  refine ⟨fun c hc => ?_, ⟨1, 0x22, [0, 0, 7], .inl rfl, .inr ⟨rfl, _, [], hs, rfl⟩⟩, ?_⟩
  · simp only [List.mem_cons, List.not_mem_nil, or_false] at hc
    rcases hc with rfl | rfl
    · exact ⟨1, 0x24, [0], .inl rfl, .inl ⟨.inr rfl, rfl⟩⟩
    · exact ⟨1, 0x23, [0], .inl rfl, .inl ⟨.inl rfl, rfl⟩⟩
  · rintro ⟨seq, kind, p, h | ⟨b, hi, h, -⟩, -⟩ <;> cases h

theorem witness_StepStartRunsTheHead :
    let s := withQueue [{ lane := 0, limit := none }] (holding .run .queued [oneMove])
    Operating s ∧ s.tickOwed = false ∧ s.modes.mode = .run ∧
      s.motion.queue = [{ lane := 0, limit := none }] ∧
      (s.motion.lane 0).steps = [oneMove] ∧ oneMove.moves = [{ act := 0, target := End.x.asMove }] ∧
      CondMet s.motion s.env oneMove.cond ∧ (s.motion.act 0).cfg.guards = [] ∧ (s.motion.act 0).managed = true ∧
      (s.motion.act 0).owner = .none ∧ (s.motion.act 0).state = .rest ∧ s.latches.get (bankOf 0) = false ∧
      ¬ ((s.motion.act 0).position = End.x.position ∧ (s.motion.act 0).supervised = true) ∧
      (s.motion.act 0).lineA = false ∧ (s.motion.act 0).lineB = false ∧ (s.motion.act 0).pulse = none ∧
      ¬ conflicting (s.env.view 0) (s.motion.act 0) ∧ ¬ sensed (s.env.view 0) .x (s.motion.act 0) := by
  have met : ∀ m v, CondMet m v oneMove.cond := fun _ _ => trivial
  simp only [met, true_and]
  unfold sensed conflicting; decide +kernel

/-- Steps whose moves go each way at their start: into TRAVEL, through GAP, done at the target, done by RELEASE, and one of
two moves that faults DRIVE beside one that runs; the lane is left as the results say. -/
theorem witness_StepStartRunsTheHead_moves :
    ∀ c ∈ [([(0, MoveTarget.extend)], false, LaneState.running), ([(0, .retract)], false, .empty),
        ([(0, .release)], false, .empty), ([(1, .extend)], false, .running),
        ([(0, .extend), (4, .extend)], true, .running), ([(4, .extend)], true, .faulted)],
      let h : Machine.Step := { oneMove with moves := c.1.map fun p => { act := p.1, target := p.2 } }
      let x : Actuator := { valve with lineB := true, cfg := { valve.cfg with crossoverGap := 1 } }
      let u := withQueue [{ lane := 0, limit := none }] (withAct 1 x (withAct 4 valve (holding .run .queued [h])))
      let s := if c.2.1 then withLatch 1 u else u
      Operating s ∧ s.tickOwed = false ∧ s.modes.mode = .run ∧
        s.motion.queue = [{ lane := 0, limit := none }] ∧
        (s.motion.lane 0).steps = [h] ∧ h.moves ≠ [] ∧ (h.moves.map (·.act)).Nodup ∧ h.cond = .next ∧
        (∀ mv ∈ h.moves, (s.motion.act mv.act).managed = true ∧ (s.motion.act mv.act).owner = .none ∧
          (s.motion.act mv.act).state = .rest ∧ (s.motion.act mv.act).cfg.guards = []) ∧
        ((after .stepStart s).motion.lane 0).state = c.2.2 := by decide +kernel

/-- The tick's own event outstanding with an entry that may start, and a queue whose one entry may not. -/
theorem witness_StepStartRunsTheHead_outstanding :
    Operating haltNears ∧ haltNears.tickOwed = true ∧ haltNears.modes.mode = .run ∧
      haltNears.motion.queue = [] ++ { lane := 0, limit := none } :: [] ∧
      MayStart haltNears.env haltNears.event [] { lane := 0, limit := none } ∧
      (withQueue [{ lane := 0, limit := none }] (holding .run .queued [])).modes.mode = .run ∧
      ((withQueue [{ lane := 0, limit := none }] (holding .run .queued [])).motion.lane 0).steps = [] := by
  refine ⟨by decide +kernel, by decide +kernel, by decide +kernel, by decide +kernel,
    ⟨oneMove, [], by decide +kernel, by decide +kernel, ?_, trivial, fun o ho => by cases ho⟩, rfl, rfl⟩
  unfold GuardMet; decide +kernel

/-- Lane 1 is left in the queue behind lane 0, whose step needs the same actuator. -/
theorem witness_TheOldestReadyStepStartsAndNoneIsLeft :
    let s := withQueue [{ lane := 0, limit := none }, { lane := 1, limit := none }]
      (withLane 1 (laneWith .queued [oneMove]) (holding .run .queued [oneMove]))
    let e : Event := { m := s.motion, raised := [], started := [] }
    Event.findReady s.env e [] e.m.queue = some 0 ∧ s.env.mode = .run ∧
      (Event.arbitrate s.env e).m.queue = [{ lane := 1, limit := none }] ∧
      (holding .setup .queued [oneMove]).env.mode ≠ .run := by decide +kernel

theorem witness_TheArbiterLeavesOthersAlone :
    let e : Event := { m := (dueIn .travel .jog).motion, raised := [], started := [] }
    (e.m.act 0).owner ≠ .none ∧ ∀ l : LaneIx, ∀ q ∈ e.m.queue, q.lane ≠ l := by decide +kernel

/-- Filter time 10 and filter time 0; a level that agrees cannot follow a change without inversion, so IN 2 is inverted. -/
theorem witness_PinChangesStartTheFilters :
    let s := withInput 1 { Input.default false with filterTime := 0 }
      (withInput 2 { Input.default true with invert := true } State.reset)
    Operating s ∧ (s.inputs.get 0).raw = false ∧ (s.inputs.get 0).raw ≠ true ∧
      (true != (s.inputs.get 0).invert) ≠ (s.inputs.get 0).filtered ∧ (s.inputs.get 0).filterTime ≠ 0 ∧
      (true != (s.inputs.get 1).invert) ≠ (s.inputs.get 1).filtered ∧ (s.inputs.get 1).filterTime = 0 ∧
      (s.inputs.get 2).raw ≠ false ∧ (false != (s.inputs.get 2).invert) = (s.inputs.get 2).filtered ∧
      s.haltIn.pin = true ∧ s.haltIn.pin ≠ false ∧ (s.drvflt.get 3).pin = true ∧ (s.drvflt.get 3).pin ≠ false := by
  decide +kernel

/-- An input whose stability timer is due, its level changed or not. -/
def settling (changed : Bool) : Input := { Input.default changed with filtered := false, timer := some 0 }

theorem witness_StabilityExpiryTakesTheLevel :
    ∀ c ∈ [false, true],
      let s := withInput 31 (settling c) State.reset
      Operating s ∧ (s.inputs.get 31).timer = some 0 ∧
        (((s.inputs.get 31).raw != (s.inputs.get 31).invert) = (s.inputs.get 31).filtered ↔ c = false) ∧
        (withAct 15 { valve with cfg := { valve.cfg with sensing := .xOnly } } s).motion.act 15 ≠ Actuator.default ∧
        ((withAct 15 { valve with cfg := { valve.cfg with sensing := .xOnly } } s).motion.act
          (inputAct 31)).cfg.sensing.has (inputEnd 31) = false := by decide +kernel

/-- IN 0 becomes active or inactive under actuator 0 in a state: every clause has its state. -/
theorem witness_SensorChangesMoveTheActuator :
    (∀ x ∈ [{ underWay .travel .jog with cfg := { valve.cfg with settleTime := 1 } },
          { underWay .settle .jog with travelTimer := some 1 }, underWay .settle .jog, valve, Actuator.default,
          { valve with state := .faulted }],
      let s := withInput 0 (settling true) (withAct 0 x State.reset)
      Operating s ∧ (s.inputs.get 0).timer = some 0 ∧ inputAct 0 = 0 ∧ inputEnd 0 = .x ∧
        ((s.inputs.get 0).raw != (s.inputs.get 0).invert) ≠ (s.inputs.get 0).filtered ∧
        x.cfg.sensing.has (inputEnd 0) = true ∧ (s.motion.act 0) = x) ∧
      ¬ conflicting ((seeing 0 .x State.reset).env.view 0) valve ∧
      conflicting ((seeing 0 .x (seeing 0 .r State.reset)).env.view 0) valve ∧
      (let s := inMode .run (withInput 1 { Input.default false with filtered := true, timer := some 0 }
         (withAct 0 valve State.reset))
       ((s.inputs.get 1).raw != (s.inputs.get 1).invert) ≠ (s.inputs.get 1).filtered ∧ inputEnd 1 = .r ∧
         (s.motion.act 0).supervised = true ∧ (s.motion.act 0).position = (inputEnd 1).position ∧ s.modes.mode = .run) := by
  unfold conflicting; decide +kernel

/-- Arrival with settle time 0, and rest supervision in RUN with both sensors active or the far one alone changed. -/
theorem witness_SensorChangesMoveTheActuator_at_once_and_at_rest :
    (let s := withInput 0 (settling true) (withAct 0 (underWay .travel .jog) State.reset)
     Operating s ∧ (s.inputs.get 0).timer = some 0 ∧ (s.motion.act 0).state = .travel ∧
       (s.motion.act 0).target = some (inputEnd 0) ∧ (s.motion.act 0).cfg.settleTime = 0 ∧
       ¬ conflicting ((seeing 0 .x s).env.view 0) (s.motion.act 0)) ∧
      (∀ r ∈ [false, true],
        let s := withInput 0 (settling true) (withInput 1 (Input.default r) (inMode .run (withAct 0 valve State.reset)))
        Operating s ∧ (s.inputs.get 0).timer = some 0 ∧ s.modes.mode = .run ∧
          (s.motion.act 0).state = .rest ∧ (s.motion.act 0).supervised = true ∧
          (s.motion.act 0).position ≠ (inputEnd 0).position ∧
          (conflicting ((seeing 0 .x s).env.view 0) (s.motion.act 0) ↔ r = true)) := by
  unfold conflicting; decide +kernel

/-- Changes in motion that nothing follows: the departure sensor in TRAVEL, either sensor in GAP, and in SETTLE. -/
theorem witness_SensorChangesMoveTheActuator_in_motion :
    ∀ c ∈ [(ActState.travel, End.r), (.gap, .x), (.gap, .r), (.settle, .r)],
      let x := underWay c.1 .jog
      let i := match c.2 with | .x => xInput 0 | .r => rInput 0
      let s := withInput i (settling true) (withAct 0 x State.reset)
      Operating s ∧ (s.inputs.get i).timer = some 0 ∧ inputAct i = 0 ∧ inputEnd i = c.2 ∧
        (s.motion.act 0).moving = true ∧ (s.motion.act 0).cfg.sensing.has c.2 = true ∧
        ¬ conflicting ((seeing 0 c.2 s).env.view 0) (s.motion.act 0) ∧
        (after (.stabilityTimerExpiry i) s).motion = s.motion := by
  unfold conflicting; decide +kernel

/-- Every safe action, at rest and under way, toward the same end and the other. -/
theorem witness_HaltAndLinkLossHaltThePart_safe_actions :
    ∀ f ∈ [SafeAction.hold, .release, .extend, .retract], ∀ st ∈ [ActState.rest, .gap, .travel, .settle],
      let x := { underWay st (.lane 0) with cfg := { valve.cfg with safeAction := f } }
      let s := withHalt { pin := false, active := false, timer := some 0 } (withAct 0 x State.reset)
      Operating s ∧ s.haltIn.timer = some 0 ∧ s.haltIn.pin = false ∧ s.haltIn.active = false ∧
        s.modes.mode ≠ .halted ∧ (s.motion.act 0).managed = true ∧ (s.motion.act 0).state ≠ .off ∧
        (s.motion.act 0).state ≠ .faulted ∧ (s.motion.act 0).cfg.safeAction = f ∧ (s.motion.act 0).state = st ∧
        (s.motion.act 0).target = some .x := by decide +kernel

theorem witness_HaltAndLinkLossHaltThePart :
    (∀ m ∈ [Mode.setup, .run, .halted], ∀ pin ∈ [false, true],
      let s := inMode m (withHalt { pin := pin, active := false, timer := some 0 } State.reset)
      Operating s ∧ s.haltIn.timer = some 0 ∧ s.haltIn.pin = pin ∧ s.haltIn.active = false ∧
        s.modes.mode = m) ∧
      (∀ m ∈ [Mode.setup, .run, .halted],
        let s := inMode m (withLink (fun k => { k with watchSetting := 50, watchTimer := some 0 }) State.reset)
        Operating s ∧ s.link.watchTimer = some 0 ∧ s.modes.mode = m) ∧
      (let s := holding .run .running [running]
       (s.motion.lane 0).steps = [running] ∧ (s.motion.act 0).managed = true ∧ (s.motion.act 0).state ≠ .off ∧
         (s.motion.act 0).state ≠ .faulted ∧ (s.motion.act 0).cfg.safeAction = .release) := by decide +kernel

theorem witness_DriverFaultSetsTheLatch :
    ∀ pin ∈ [false, true], ∀ latched ∈ [false, true], ∀ x ∈ [valve, underWay .travel .jog, Actuator.default],
      let u := withDrvflt 3 { pin := pin, active := false, timer := some 0 } (withAct 12 x State.reset)
      let s := if latched then withLatch 3 u else u
      Operating s ∧ (s.drvflt.get 3).timer = some 0 ∧ (s.drvflt.get 3).pin = pin ∧
        (s.drvflt.get 3).active = false ∧ s.latches.get 3 = latched ∧ bankOf 12 = 3 ∧ s.motion.act 12 = x ∧
        ∀ l, (s.motion.lane l).state ≠ .running := by decide +kernel

/-- A lane runs a step on actuators 0 and 4, of two banks, and bank 0 reports a driver fault. -/
theorem witness_DriverFaultSetsTheLatch_of_a_running_lane :
    ∀ p ∈ [FaultPolicy.finishOthers, .stopAll],
      let h : Machine.Step := { runningTwo with
        moves := [{ act := 0, target := .extend }, { act := 4, target := .extend }], results := [(0, .pending), (4, .pending)] }
      let s := withDrvflt 0 { pin := false, active := false, timer := some 0 }
        (withLane 0 { laneWith .running [h] with policy := p }
          (withAct 4 (underWay .travel (.lane 0)) (withAct 0 (underWay .travel (.lane 0)) .reset)))
      Operating s ∧ (s.drvflt.get 0).timer = some 0 ∧ (s.drvflt.get 0).pin = false ∧
        (s.drvflt.get 0).active = false ∧ s.latches.get 0 = false ∧ (s.motion.lane 0).state = .running ∧
        (s.motion.lane 0).steps = [h] ∧ bankOf 0 = 0 ∧ (s.motion.act 0).managed = true ∧
        (s.motion.act 0).state = .travel ∧ (s.motion.act 0).owner = .lane 0 ∧ (0, MoveResult.pending) ∈ h.results ∧
        (∀ b : ActIx, b ≠ 0 → bankOf b = 0 → (s.motion.act b).owner ≠ .lane 0) ∧
        (∀ j : LaneIx, j ≠ 0 → (s.motion.lane j).state ≠ .running) := by decide +kernel

/-- A step under way on actuators 0, 1 and 4, with the result of actuator 1. -/
def runningThree (r : MoveResult) : Machine.Step :=
  { running with
    moves := [{ act := 0, target := .extend }, { act := 1, target := .extend }, { act := 4, target := .extend }]
    results := [(0, .pending), (1, r), (4, .pending)] }

/-- A lane runs that step, and bank 0 reports a driver fault: actuator 1 is still moving, or done. -/
def twoOfABank (p : FaultPolicy) (r : MoveResult) : State :=
  withDrvflt 0 { pin := false, active := false, timer := some 0 }
    (withLane 0 { laneWith .running [runningThree r] with policy := p }
      (withAct 4 (underWay .travel (.lane 0))
        (withAct 1 (if r = .pending then underWay .travel (.lane 0) else { valve with owner := .lane 0 })
          (withAct 0 (underWay .travel (.lane 0)) .reset))))

theorem witness_DriverFaultSetsTheLatch_of_two_actuators :
    ∀ p ∈ [FaultPolicy.finishOthers, .stopAll], ∀ r ∈ [MoveResult.pending, .done],
      Operating (twoOfABank p r) ∧ ((twoOfABank p r).drvflt.get 0).timer = some 0 ∧
        (twoOfABank p r).latches.get 0 = false ∧ ((twoOfABank p r).motion.lane 0).state = .running ∧
        ((twoOfABank p r).motion.lane 0).steps = [runningThree r] ∧ ((twoOfABank p r).motion.lane 0).policy = p ∧
        ((after (.drvfltFilterExpiry 0) (twoOfABank p r)).motion.act 1).state =
          (if p = .finishOthers then .faulted else .rest) := by decide +kernel

theorem witness_DriverFaultSetsTheLatch_of_two_actuators_owned :
    ∀ r ∈ [MoveResult.pending, .done], let m := (twoOfABank .stopAll r).motion
      (∀ c ∈ [(0 : ActIx), 1], bankOf c = 0 ∧ (m.act c).managed = true ∧
        ((m.act c).state = .rest ∨ (m.act c).moving = true) ∧ (m.act c).owner = .lane 0) ∧
      ((m.act 1).moving = true ↔ (1, MoveResult.pending) ∈ (runningThree r).results) ∧
      (4, MoveResult.pending) ∈ (failedAt 0 (runningThree r)).results := by decide +kernel

theorem witness_DriverFaultSetsTheLatch_of_two_actuators_alone :
    ∀ r ∈ [MoveResult.pending, .done], let m := (twoOfABank .stopAll r).motion
      (∀ c : ActIx, c ≠ 0 → c ≠ 1 → bankOf c = 0 → (m.act c).owner ≠ .lane 0) ∧
        ∀ j : LaneIx, j ≠ 0 → (m.lane j).state ≠ .running := by decide +kernel

theorem witness_TheReceiverAndItsCrc :
    (∀ st ∈ [RxState.hunt, .len, .seq, .kind, .payload, .crc],
      Operating (receiving st) ∧ (receiving st).link.rx.state = st ∧
        (receiving st).link.rx.crcHigh = none) ∧
      (120 : Byte).toNat ≤ 120 ∧ 120 < (121 : Byte).toNat ∧ (0xC4 : Byte) ≠ 0xC5 ∧
      (let s := withLink (fun k => { k with rx :=
         { Receiver.hunt with state := .crc, crcHigh := some 1, gapTimer := some 0 } }) State.reset
       s.link.rx.state = .crc ∧ s.link.rx.crcHigh = some 1 ∧ (1 : Byte) ++ (2 : Byte) ≠ s.link.rx.crc ∧
         s.link.rx.gapTimer = some 0 ∧ s.modes.pendingRestart = none) ∧
      (restarting 0).modes.pendingRestart ≠ none := by decide +kernel

theorem witness_ACompleteFrameIsItsRequest :
    let s := withLink (fun k => { k with rx := { Receiver.hunt with state := .crc, crcHigh := some 0xFF } }) State.reset
    Operating s ∧ s.link.rx.state = .crc ∧ s.link.rx.crcHigh = some 0xFF ∧
      (0xFF : Byte) ++ (0xFF : Byte) = s.link.rx.crc ∧ spoken (.ident 1 []) = some (1, 0x01, []) := by decide +kernel

theorem witness_TheLinkAnswersUnknownKindAndBadLength :
    Takes .reset 1 ∧ spoken (.unknownKind 1 0x00 []) = some (1, 0x00, []) ∧ 0x00 ∉ requestKinds ∧
      spoken (.dismiss 1 [0]) = some (1, 0x35, [0]) ∧ 0x35 ∈ requestKinds ∧ lengthFits 0x35 [0] = false :=
  ⟨takes_reset 1, by decide +kernel⟩

theorem witness_ARefusedRequestChangesTheLinkAlone :
    Takes .reset 1 ∧ spoken (.claim 1 []) = some (1, 0x33, []) ∧
      (after (.claim 1 []) .reset).link.replies = [replyTo 1 0x33 .empty [0]] := ⟨takes_reset 1, by decide +kernel⟩

theorem witness_AGoodFrameNotTakenChangesTheLinkAlone :
    (let s := after (.ident 1 []) State.reset
     Operating s ∧ s.modes.pendingRestart = none ∧ s.link.replies.length < 4 ∧
       s.link.seqRecord.map (·.seq) = some 1) ∧
      (let s := withLink (fun k => { k with replies := List.replicate 4 [] }) State.reset
       Operating s ∧ s.modes.pendingRestart = none ∧ 4 ≤ s.link.replies.length) ∧
      Operating (restarting 1) ∧ (restarting 1).modes.pendingRestart ≠ none := by decide +kernel

theorem witness_TheTransmitterSendsOneFrameAtATime :
    (let s := after (.ident 1 []) State.reset
     Operating s ∧ s.link.replySending = true ∧ s.link.replies.length = 1 ∧
       s.modes.pendingRestart = none ∧ s.link.attnSlot = .empty) ∧
      (let s := withLink (fun k => { k with attnSlot := .sending [] }) State.reset
       s.link.replySending = false ∧ s.link.attnSlot = .sending []) ∧
      (let s := withLink (fun k => { k with attnSlot := .waiting }) State.reset
       Silent s.link ∧ s.link.attnSlot = .waiting) ∧
      (Silent State.reset.link ∧ State.reset.link.attnSlot = .empty ∧ State.reset.link.replies = []) ∧
      (∀ level ∈ [(0 : Byte), 1], (restarting level).link.replySending = true ∧
        (restarting level).link.replies.length = 1 ∧ (restarting level).modes.pendingRestart.isSome = true) := by
  refine ⟨?_, ?_, ⟨⟨rfl, fun f h => by cases h⟩, rfl⟩, ⟨⟨rfl, fun f h => by cases h⟩, rfl, rfl⟩, ?_⟩
  · decide +kernel
  · decide +kernel
  · decide +kernel

/-- A frame ends in RUN with a head queued that the end of the event starts, and a reply ends with the reply to RESTART behind
it. -/
theorem witness_TheTransmitterSendsOneFrameAtATime_busy :
    (let s := withLink (fun k => { k with replies := [[1]], replySending := true })
       (withQueue [{ lane := 0, limit := none }] (holding .run .queued [oneMove]))
     Operating s ∧ s.modes.mode = .run ∧ s.motion.queue ≠ [] ∧ s.link.replySending = true ∧
       s.link.replies = [[1]] ∧ s.modes.pendingRestart = none ∧ s.link.attnSlot = .empty ∧
       ((after .txFrameEnd s).motion.lane 0).state = .running) ∧
      (let s := after (.restart 2 [0]) (after (.ident 1 []) State.reset)
       Operating s ∧ s.link.replySending = true ∧ s.link.replies.length = 2 ∧
         s.modes.pendingRestart = some .level0 ∧ s.link.attnSlot = .empty ∧
         (after .txFrameEnd s).modes.pendingRestart = some .level0 ∧
         (after .txFrameEnd s).link.replies.length = 1) := by decide +kernel

/-- A record of priority 5 waits above floor 4: floor 5 makes it eligible. -/
theorem witness_AReplyAndAnAttentionFrameMayBeginInEitherOrder :
    let s := withNotices (fun u => { u with floor := 4, waiting := [record 1 5] }) State.reset
    Takes s 1 ∧ Calm s ∧ Silent s.link ∧ s.link.attnSlot = .empty ∧ s.link.replies = [] ∧ s.notices.attn = false ∧
      NoticeUnit.attention { s.notices with floor := 5 } = true :=
  ⟨takes_fresh rfl ⟨rfl, rfl⟩ rfl 1, .inr rfl, ⟨rfl, fun f h => by cases h⟩, by decide +kernel⟩

theorem witness_IdentAnswersTheFixedValues : Takes .reset 0xFF := takes_reset 0xFF

theorem witness_StatusReportsAndClearsTheCounts : Takes .reset 0 := takes_reset 0

theorem witness_ReadsAnswerAndChangeNothing :
    Takes .reset 1 ∧ (∀ h ∈ (State.reset.motion.lane 3).steps, h.run ≠ .running) ∧ 15 < (16 : Byte).toNat ∧
      3 < (4 : Byte).toNat ∧ State.reset.notices.waiting = [] ∧
      Takes (holding .run .running [running]) 1 ∧
      ((holding .run .running [running]).motion.lane 0).steps = [running] ∧ running.run = .running ∧
      running.startTime = some 0 ∧
      (let s := withNotices (fun u => { u with waiting := [record 1 5] }) State.reset
       s.notices.waiting.find? s.notices.eligible = some (record 1 5)) ∧
      (let s := withNotices (fun u => { u with floor := 4, waiting := [record 1 5] }) State.reset
       s.notices.waiting = [record 1 5] ∧ s.notices.waiting.find? s.notices.eligible = none) :=
  ⟨takes_reset 1, by decide +kernel, by decide, by decide, rfl, takes_holding .run .running _ 1, by decide +kernel⟩

/-- The valve with one guard, on actuator 15, which is not managed. -/
def guarded : Actuator := { valve with cfg := { valve.cfg with guards := [{ other := 15, required := .x }] } }

theorem witness_EnterRunEvaluatesTheLanes :
    (∀ m ∈ [Mode.setup, .run, .halted], Takes (holding m .waiting [timed 5]) 1 ∧
      (holding m .waiting [timed 5]).modes.mode = m) ∧
      (let s := holding .setup .waiting [timed 5]
       s.haltIn.active = false ∧ (∀ a, (s.motion.act a).owner = .none) ∧
         (∀ a, (s.motion.act a).managed = true → (s.motion.act a).cfg.guards = []) ∧
         (s.motion.act 0).state = .rest ∧ ¬ conflicting (s.env.view 0) (s.motion.act 0) ∧
         conflicting ((seeing 0 .x (seeing 0 .r s)).env.view 0) (s.motion.act 0)) ∧
      (withHalt { pin := false, active := true, timer := none } State.reset).haltIn.active = true ∧
      ((dueIn .travel .jog).motion.act 0).owner ≠ .none ∧
      (let s := withAct 0 guarded State.reset
       Takes s 1 ∧ (s.motion.act 0).cfg.guards = [] ++ { other := 15, required := .x } :: [] ∧
         (s.motion.act 0).managed = true ∧ (s.motion.act 15).managed = false ∧ ∀ b : ActIx, ¬ b < 0) := by
  refine ⟨fun m _ => ⟨takes_holding m _ _ 1, rfl⟩, ?_, rfl, ?_, takes_fresh rfl ⟨rfl, rfl⟩ rfl 1, ?_⟩
  · unfold conflicting; decide +kernel
  · decide +kernel
  · decide +kernel

theorem witness_EnterSetupHoldsTheLanes :
    (∀ m ∈ [Mode.setup, .run, .halted], Takes (holding m .waiting [oneMove]) 1) ∧
      ((holding .run .running [running]).motion.lane 0).state = .running ∧
      (let s := holding .run .waiting [oneMove]
       s.modes.mode = .run ∧ (∀ l, (s.motion.lane l).state ≠ .running) ∧ (∀ a, (s.motion.act a).owner = .none)) ∧
      (let s := inMode .halted (withAct 0 (underWay .travel .safe) State.reset)
       s.modes.mode = .halted ∧ s.haltIn.active = false ∧ (s.motion.act 0).owner = .safe) ∧
      (let s := inMode .halted State.reset
       s.modes.mode = .halted ∧ s.haltIn.active = false ∧ (∀ a, (s.motion.act a).owner ≠ .safe)) ∧
      (withHalt { pin := false, active := true, timer := none } (inMode .halted .reset)).haltIn.active = true :=
  ⟨fun m _ => takes_holding m _ _ 1, by decide +kernel⟩

theorem witness_SetTimeMovesTheClock :
    Takes .reset 1 ∧ State.reset.modes.mode = .setup ∧ Takes (inMode .run (withAct 0 valve .reset)) 1 ∧
      (inMode .run (withAct 0 valve .reset)).modes.mode ≠ .setup :=
  ⟨takes_reset 1, rfl, takes_withAct 0 valve .run 1, by decide⟩

/-- A record at the upper ends of its ranges, and one at the lower. -/
theorem witness_ActConfigReplacesOrRefuses :
    ConfigInRange 0 { valve.cfg with travelLimit := 30000, settleTime := 2000, crossoverGap := 500, pulseLength := 1000 } ∧
      ConfigInRange 0 ActConfig.default ∧ ConfigInRange 0 { valve.cfg with kind := .single } ∧
      Takes .reset 1 ∧ Takes (holding .run .empty []) 1 ∧
      ((dueIn .travel .jog).motion.act 0).moving = true ∧
      (∃ mv ∈ oneMove.moves, mv.act = 0) ∧ (holding .setup .waiting [oneMove]).modes.mode = .setup ∧
      ([] : List Byte).length = 2 * (0 : Byte).toNat ∧
      ((0 : Byte) ++ (19 : Byte) : BitVec 16).toNat < 20 ∧ 30000 < ((0x75 : Byte) ++ (0x31 : Byte) : BitVec 16).toNat ∧
      2000 < ((7 : Byte) ++ (0xD1 : Byte) : BitVec 16).toNat ∧ 500 < ((1 : Byte) ++ (0xF5 : Byte) : BitVec 16).toNat ∧
      1000 < ((3 : Byte) ++ (0xE9 : Byte) : BitVec 16).toNat ∧ ¬ ((pairs [1, 0, 1, 1]).map (·.1)).Nodup := by
  refine ⟨?_, ?_, ?_, takes_reset 1, takes_holding .run .empty [] 1, ?_⟩
  · unfold ConfigInRange; decide +kernel
  · unfold ConfigInRange; decide +kernel
  · unfold ConfigInRange; decide +kernel
  · decide +kernel

theorem witness_JogIsRefusedOrStartsItsMove :
    Takes .reset 1 ∧ 15 < (16 : Byte).toNat ∧ 2 < (3 : Byte).toNat ∧ (State.reset.motion.act 15).managed = false ∧
      (∀ m ∈ [Mode.setup, .run], Takes (inMode m (withAct 0 valve .reset)) 1 ∧
        (inMode m (withAct 0 valve .reset)).modes.mode = m) ∧
      (∀ x ∈ [valve, guarded, { valve with state := .faulted }, underWay .travel .jog,
            { valve with lineB := true, cfg := { valve.cfg with crossoverGap := 1 } }],
        Takes (inMode .setup (withAct 0 x .reset)) 1 ∧ x.managed = true ∧ x.cfg.kind ≠ .single) ∧
      valve.owner = .none ∧ valve.state = .rest ∧ valve.position = End.r.position ∧ valve.supervised = true ∧
      ¬ (valve.position = End.x.position ∧ valve.supervised = true) ∧
      (withAct 0 valve State.reset).latches.get (bankOf 0) = false ∧
      (withLatch 0 (withAct 0 valve State.reset)).latches.get (bankOf 0) = true ∧
      ¬ GuardMet (withAct 0 guarded State.reset).motion { other := 15, required := .x } ∧
      { valve with lineB := true }.coil End.x.opposite = true ∧ { valve with lineB := true }.coil .x = false ∧
      ¬ conflicting ((withAct 0 valve State.reset).env.view 0) valve ∧
      ¬ sensed ((withAct 0 valve State.reset).env.view 0) .x valve := by
  refine ⟨takes_reset 1, by decide, by decide, rfl, fun m _ => ⟨takes_withAct 0 valve m 1, rfl⟩, ?_, ?_⟩
  · intro x hx
    refine ⟨takes_withAct 0 x .setup 1, ?_⟩
    revert x; decide +kernel
  · unfold GuardMet conflicting sensed; decide +kernel

/-- An accepted JOG that meets a conflict, an active target sensor, the opposite coil with a gap of 0, and the opposite pulse of
a DOUBLE_PULSED actuator, with the state it leaves. -/
theorem witness_JogIsRefusedOrStartsItsMove_moves :
    ∀ c ∈ [(({ valve with supervised := false } : Actuator), [End.x, .r], ActState.faulted),
        ({ valve with supervised := false }, [.x], .rest), ({ valve with lineB := true }, [], .travel),
        ({ valve with
            cfg := { valve.cfg with kind := .doublePulsed, crossoverGap := 1 }
            lineB := true, pulse := some { coil := .r, left := 5 } }, [], .gap)],
      let s := withLink (fun k => { k with replies := [[1]], replySending := true })
        (c.2.1.foldl (fun s e => seeing 0 e s) (withAct 0 c.1 State.reset))
      s.modes.mode = .setup ∧ (s.motion.act 0).managed = true ∧ (s.motion.act 0).owner = .none ∧
        (s.motion.act 0).state = .rest ∧ (s.motion.act 0).cfg.guards = [] ∧
        ((after (.jog 1 [0, 0, 0]) s).motion.act 0).state = c.2.2 := by decide +kernel

theorem witness_ActClearReturnsToRest :
    Takes .reset 1 ∧ 15 < (16 : Byte).toNat ∧ (State.reset.motion.act 15).state ≠ .faulted ∧
      (let s := inMode .setup (withAct 15 { valve with state := .faulted } State.reset)
       Takes s 1 ∧ (s.motion.act 15).state = .faulted) :=
  ⟨takes_reset 1, by decide, by decide, takes_withAct 15 _ .setup 1, by decide +kernel⟩

theorem witness_InputConfigRestartsTheTiming :
    Takes .reset 1 ∧ 31 < (32 : Byte).toNat ∧ 3 < (4 : Byte).toNat ∧ Watch.ofCode 0 = some .none ∧
      Watch.ofCode 3 = some .both ∧ ((State.reset.inputs.get 31).raw != false) = (State.reset.inputs.get 31).filtered ∧
      ((State.reset.inputs.get 31).raw != true) ≠ (State.reset.inputs.get 31).filtered ∧
      (State.reset.motion.act (inputAct 31)).cfg.kind = .none ∧
      (let s := inMode .setup (withAct 15 { valve with cfg := { valve.cfg with sensing := .none } } State.reset)
       Takes s 1 ∧ (s.motion.act (inputAct 31)).cfg.sensing.has (inputEnd 31) = false) := by
  refine ⟨takes_reset 1, ?_, ?_, ?_, ?_, ?_, ?_, ?_, takes_withAct 15 _ .setup 1, ?_⟩ <;> decide +kernel

/-- OUT 31 as the only line of the mask, of a DIRECT kind and of a two-coil one. -/
theorem witness_LinesSetWritesDirectLines :
    Takes .reset 1 ∧ State.reset.modes.mode ≠ .halted ∧
      (∀ a : ActIx, (State.reset.motion.act a).cfg.kind.managed = false ∧
        (State.reset.motion.act a).cfg.kind.double = false) ∧
      (∀ m ∈ [Mode.halted, .setup], Takes (inMode m (withAct 15 valve .reset)) 1) ∧
      ((0x80 : Byte) ++ (0 : Byte) ++ (0 : Byte) ++ (0 : Byte) : BitVec 32).getLsbD (2 * 15 + 1) = true ∧
      ((withAct 15 valve State.reset).motion.act 15).cfg.kind.double = true :=
  ⟨takes_reset 1, by decide, by decide +kernel, fun m _ => takes_withAct 15 valve m 1, by decide +kernel⟩

theorem witness_BankClearReleasesTheLatch :
    Takes .reset 1 ∧ 3 < (4 : Byte).toNat ∧ State.reset.latches.get 3 = false ∧ (State.reset.drvflt.get 3).active = false ∧
      (∀ x ∈ [{ valve with state := .faulted, lineA := true }, { valve with lineB := true }],
        let s := withLatch 3 (withAct 12 x State.reset)
        Takes s 1 ∧ s.latches.get 3 = true ∧ (s.drvflt.get 3).active = false ∧ bankOf 12 = 3 ∧
          (s.motion.act 12).managed = true) ∧
      ((withDrvflt 3 { pin := false, active := true, timer := none } State.reset).drvflt.get 3).active = true := by
  refine ⟨takes_reset 1, by decide, by decide, by decide, fun x hx => ⟨takes_fresh rfl ⟨rfl, rfl⟩ rfl 1, ?_⟩, by decide +kernel⟩
  revert x; decide +kernel

theorem witness_LaneConfigAndMarkSetWriteTheirValues :
    Takes .reset 1 ∧ 3 < (4 : Byte).toNat ∧ 1 < (2 : Byte).toNat ∧ 7 < (8 : Byte).toNat ∧
      FaultPolicy.ofCode 0 = some .finishOthers ∧ FaultPolicy.ofCode 1 = some .stopAll ∧
      State.reset.modes.mode = .setup ∧ Takes (holding .run .empty []) 1 ∧ (holding .run .empty []).modes.mode ≠ .setup :=
  ⟨takes_reset 1, by decide, by decide, by decide, rfl, rfl, rfl, takes_holding .run .empty [] 1, by decide⟩

theorem witness_StepPostAppendsOrRefuses :
    CondBytes .next 0 0 0 0 0 ∧ CondBytes (.delay 600000) 1 0 9 0x27 0xC0 ∧ CondBytes (.atTime 1) 2 0 0 0 1 ∧
      CondBytes (.onInput 31 true) 3 31 1 0 0 ∧ CondBytes (.onMark 7) 4 7 0 0 0 ∧ MarkByte none 0xFF ∧
      MarkByte (some 7) 7 ∧ (7 : Byte).toNat ≤ 7 ∧ ((0xEA : Byte) ++ (0x60 : Byte) : BitVec 16).toNat = 60000 ∧
      ((0 : Byte) ++ (10 : Byte) : BitVec 16).toNat = 10 ∧
      (∀ st ∈ [LaneState.empty, .waiting], Takes (holding .run st []) 1) ∧
      MovesTaken (holding .run .empty []).motion [{ act := 0, target := .release }] ∧
      32 ≤ ((holding .run .waiting (List.replicate 32 oneMove)).motion.lane 0).steps.length ∧
      (holding .run .empty []).motion.poolFree ≠ 0 ∧ ((holding .run .empty []).motion.lane 0).steps = [] ∧
      600000 < ((0 : Byte) ++ (9 : Byte) ++ (0x27 : Byte) ++ (0xC1 : Byte) : BitVec 32).toNat ∧
      ((0 : Byte) ++ (9 : Byte) : BitVec 16).toNat ≤ 9 ∧ 60000 < ((0xEA : Byte) ++ (0x61 : Byte) : BitVec 16).toNat ∧
      [0, 0].length = 2 * (1 : Byte).toNat ∧ (State.reset.motion.act 0).managed = false := by
  unfold CondBytes MarkByte
  refine ⟨?_, ?_, ?_, ?_, ?_, ?_, ?_, ?_, ?_, ?_, fun st _ => takes_holding .run st [] 1, ?_, ?_⟩
  · decide
  · decide
  · decide
  · decide
  · decide
  · decide
  · decide
  · decide
  · decide
  · decide
  · unfold MovesTaken; decide +kernel
  · decide +kernel

theorem witness_StepCancelAndLaneFlushReturnSteps :
    3 < (4 : Byte).toNat ∧ (∀ st : LaneState, Takes (holding .run st [oneMove, timed 5]) 1 ∧
      ((holding .run st [oneMove, timed 5]).motion.lane 0).state = st ∧
      ((holding .run st [oneMove, timed 5]).motion.lane 0).steps = [oneMove, timed 5]) ∧
      oneMove.tag = (0 : Byte) ++ (7 : Byte) ∧ (∀ h ∈ [oneMove, timed 5], h.tag ≠ (0 : Byte) ++ (8 : Byte)) ∧
      CutsTag 7 [timed 5] [] ∧ (∀ q ∈ (holding .run .paused []).motion.queue, q.lane ≠ 0) := by
  refine ⟨by decide, fun st => ⟨takes_holding .run st _ 1, rfl, rfl⟩, by decide, by decide, ⟨[], timed 5, [], rfl, rfl, ?_, rfl⟩,
    by decide +kernel⟩
  intro g hg; cases hg

theorem witness_LanePauseAndLaneAbort :
    3 < (4 : Byte).toNat ∧ (∀ st : LaneState, Takes (holding .run st [running]) 1 ∧
      ((holding .run st [running]).motion.lane 0).state = st ∧
      ((holding .run st [running]).motion.lane 0).steps = [running]) ∧
      (0, MoveResult.pending) ∈ running.results ∧ (underWay .travel (.lane 0)).moving = true :=
  ⟨by decide, fun st => ⟨takes_holding .run st _ 1, rfl, rfl⟩, by decide, by decide⟩

/-- A move of a RUNNING step that is DONE beside one that is PENDING. -/
theorem witness_LanePauseAndLaneAbort_done_move :
    let h : Machine.Step := { runningTwo with results := [(0, .pending), (1, .done)] }
    let s := withLane 0 (laneWith .running [h]) (withAct 1 { valve with owner := .lane 0 } (dueIn .travel (.lane 0)))
    Takes s 1 ∧ (s.motion.lane 0).state = .running ∧ (s.motion.lane 0).steps = [h] ∧
      (0, MoveResult.pending) ∈ h.results ∧ (s.motion.act 0).moving = true ∧
      ({ act := 1, target := .extend } : Move) ∈ h.moves ∧ (1, MoveResult.pending) ∉ h.results :=
  ⟨takes_fresh rfl ⟨rfl, rfl⟩ rfl 1, by decide +kernel⟩

theorem witness_LaneResumeEvaluatesOrEmpties :
    3 < (4 : Byte).toNat ∧ 1 < (2 : Byte).toNat ∧
      (∀ st : LaneState, ∀ steps ∈ [[], [oneMove], [oneMove, timed 5]], Takes (holding .run st steps) 1 ∧
        ((holding .run st steps).motion.lane 0).state = st ∧ ((holding .run st steps).motion.lane 0).steps = steps ∧
        ∀ q ∈ (holding .run st steps).motion.queue, q.lane ≠ 0) :=
  ⟨by decide, by decide, fun st steps _ => ⟨takes_holding .run st steps 1, rfl, rfl, by intro q hq; cases hq⟩⟩

/-- 32 pending records, each of its own source. -/
def fullList : List Notice := (List.range 32).map fun i => { record (BitVec.ofNat 16 (i + 1)) 4 with source := some i }

theorem witness_ANoticeIsDiscardedMergedLostOrCreated :
    let n : Raised := { cls := .watch, source := some 0, detail := 1, tag := none }
    let u := NoticeUnit.default
    (u.classes.get n.cls.index).enabled = true ∧ u.waiting.length < 32 ∧ u.stack.length ≤ 8 ∧ u.nextId ≠ 0 ∧
      (∀ q ∈ u.waiting, ¬ (q.cls = n.cls ∧ q.source = n.source)) ∧
      fullList.length = 32 ∧ (∀ q ∈ fullList, ¬ (q.cls = n.cls ∧ q.source = some 32)) ∧
      [record 1 4] = [] ++ record 1 4 :: [] ∧ (record 1 4).cls = n.cls ∧ (record 1 4).source = n.source ∧
      ({ enabled := false, priority := 0, nest := false } : ClassEntry).enabled = false := by decide +kernel

theorem witness_TheNoticesOfAnEventAreTakenInOrder :
    NoticeClass.watch ∈ [NoticeClass.halt, .link, .drive, .watch] ∧ NoticeClass.jogDone ∈ [NoticeClass.actFault, .jogDone] ∧
      NoticeClass.cycle ∈ [NoticeClass.stepDone, .cycle, .laneEmpty, .laneFault] ∧ (some 15).getD 0 < 16 := by decide

theorem witness_NoticeClassAndFloorAreReplaced :
    Takes .reset 1 ∧ 9 < (10 : Byte).toNat ∧ 1 < (2 : Byte).toNat ∧ 7 < (8 : Byte).toNat ∧
      State.reset.modes.mode = .setup ∧ Takes (holding .run .empty []) 1 ∧ (holding .run .empty []).modes.mode ≠ .setup :=
  ⟨takes_reset 1, by decide, by decide, by decide, rfl, takes_holding .run .empty [] 1, by decide⟩

/-- Eight records on the stack, each more urgent than the one below or with nest. -/
def fullStack : List Notice := (List.range 8).map fun i => { record (BitVec.ofNat 16 (i + 1)) 4 with nest := true }

/-- The notice unit of a state that takes every request, its pending list and its stack given. -/
def claiming (waiting stack : List Notice) : State :=
  withNotices (fun u => { u with waiting := waiting, stack := stack, nextId := 100 }) .reset

theorem witness_ClaimTakesTheFirstEligibleRecord :
    (∀ w ∈ [[], [record 9 3]], ∀ st ∈ [[], [record 10 5], fullStack],
      Takes (claiming w st) 1 ∧ IdLaw (claiming w st).notices ∧ (claiming w st).notices.waiting = w ∧
        (claiming w st).notices.stack = st) ∧ fullStack.length = 8 ∧
      Eligible (claiming [record 9 3] [record 10 5]).notices (record 9 3) ∧
      Eligible (claiming [record 9 3] fullStack).notices (record 9 3) := by
  refine ⟨fun w hw st hst => ⟨takes_fresh rfl ⟨rfl, rfl⟩ rfl 1, ?_⟩, by decide +kernel, ⟨by decide, ?_⟩, ⟨by decide, ?_⟩⟩
  · unfold IdLaw; revert w st; decide +kernel
  · intro top rest h; cases h; exact .inl (by decide)
  · intro top rest h; cases h; exact .inl (by decide)

theorem witness_CloseAndDismissRemoveTheirRecord :
    (∀ w ∈ [[], [record 9 3]], ∀ st ∈ [[], [record 10 5]],
      Takes (claiming w st) 1 ∧ IdLaw (claiming w st).notices ∧ (claiming w st).notices.waiting = w ∧
        (claiming w st).notices.stack = st) ∧
      (record 10 5).id = (0 : Byte) ++ (10 : Byte) ∧ (record 9 3).id = (0 : Byte) ++ (9 : Byte) ∧
      ((0 : Byte) ++ (0 : Byte) : BitVec 16) = 0 ∧ ((0 : Byte) ++ (11 : Byte) : BitVec 16) ≠ 0 := by
  refine ⟨fun w hw st hst => ⟨takes_fresh rfl ⟨rfl, rfl⟩ rfl 1, ?_⟩, by decide⟩
  unfold IdLaw; revert w st; decide +kernel

/-- A part in RUN that obeys every law, lane 0 running the step on actuator 0, a notice pending and the expiry queued. -/
def busy : State :=
  { (claiming [record 9 3] [record 10 5]) with
    motion := { (withLane 0 (laneWith .running [running]) (dueIn .settle (.lane 0))).motion with poolFree := 63 }
    modes := { State.reset.modes with mode := .run }
    pending := [.settleTimerExpiry 0]
    notices := { (claiming [record 9 3] [record 10 5]).notices with attn := true } }

theorem busy_steps : ∃ t, step busy = .next t := by
  have next : (match step busy with | .next _ => true | .fault _ => false | .refused _ => false) = true := by
    decide +kernel
  generalize step busy = out at next
  cases out with
  | next t => exact ⟨t, rfl⟩
  | fault f => cases next
  | refused r => cases next

theorem running_lane_law : LaneLaw .run (laneWith .running [running]) := by
  refine ⟨?_, ?_, ?_, ?_, ?_, ?_, ?_, ?_⟩
  · unfold StepLaw; decide +kernel
  · intro h hh; cases hh
  · intro h; cases h
  · intro h rest hs; cases hs; exact rfl
  · decide
  · decide
  · decide
  · intro h; cases h

theorem empty_lane_law : LaneLaw .run Lane.default := by
  refine ⟨?_, ?_, ?_, ?_, ?_, ?_, ?_, ?_⟩
  · intro h hh; cases hh
  · intro h hh; cases hh
  · decide
  · intro h rest hs; cases hs
  · decide
  · decide
  · decide
  · intro h; cases h

theorem busy_lanes : LanesLaw busy := by
  have first : busy.motion.lane 0 = laneWith .running [running] := by decide +kernel
  have others : ∀ l, l ≠ 0 → busy.motion.lane l = Lane.default := by decide +kernel
  have owners : ∀ a, a ≠ 0 → (busy.motion.act a).owner = .none := by decide +kernel
  have owner : (busy.motion.act 0).owner = .lane 0 := by decide +kernel
  refine ⟨fun l => ?_, fun l h rest hr hs => ?_, fun a l ho => ?_, fun hm => absurd rfl hm⟩
  · by_cases hl : l = 0
    · subst hl; rw [first]; exact running_lane_law
    · rw [others l hl]; exact empty_lane_law
  · by_cases hl : l = 0
    · subst hl
      rw [first] at hs
      cases hs
      refine ⟨by decide, ?_, by decide, ?_⟩
      · decide +kernel
      · rw [first]; decide
    · rw [others l hl] at hr; cases hr
  · by_cases ha : a = 0
    · subst ha
      rw [owner] at ho
      cases ho
      rw [first]
      exact ⟨rfl, running, [], rfl, (0, .pending), by decide, rfl⟩
    · rw [owners a ha] at ho; cases ho

theorem busy_actuators : ActuatorsLaw busy := by
  refine ⟨fun a => ⟨?_, ?_⟩, ?_⟩
  · unfold ActuatorLaw; revert a; decide +kernel
  · have held : ∀ a, (busy.motion.act a).cfg.kind ≠ .doublePulsed := by decide +kernel
    have coils : ∀ a, ¬ ((busy.motion.act a).lineA = true ∧ (busy.motion.act a).lineB = true) ∧
        ((busy.motion.act a).state ≠ .gap) := by decide +kernel
    exact fun _ => ⟨(coils a).1, fun h => absurd h (coils a).2, fun h => absurd h (held a)⟩
  · unfold StepsManaged; decide +kernel

theorem witness_ThePoolLawIsKept : PoolLaw busy := by unfold PoolLaw; decide +kernel

theorem witness_TheStartQueueLawIsKept : StartQueueLaw busy := by unfold StartQueueLaw; decide +kernel

theorem witness_TheActuatorsLawIsKept : ActuatorsLaw busy ∧ LanesLaw busy ∧ StartQueueLaw busy :=
  ⟨busy_actuators, busy_lanes, witness_TheStartQueueLawIsKept⟩

theorem witness_TheNoticesLawIsKept : NoticesLaw busy := by
  unfold NoticesLaw StackLaw PendingLaw IdLaw mayStandOn; decide +kernel

theorem witness_TheAttentionLawIsKept : AttentionLaw busy := by unfold AttentionLaw; decide +kernel

theorem witness_TheTransmitLawIsKept : TransmitLaw busy := by
  refine ⟨by decide +kernel, ?_, ?_⟩ <;> (intro h; cases h)

end Sys2Proof.Tests
end

section
/-! PROOFS of the family 01, actuators and their motion: ACT_CONFIG (R3, R4, R179) and ACT_CLEAR (R26). -/

namespace Sys2Proof.Proofs.ActuatorRequests

open Sys2Proof.Machine Sys2Proof.Safety

/-! ## The meaning of the two commands -/

theorem exec_actConfig (seq : Byte) (payload : List Byte) (s : State) :
    exec (.actConfig seq payload) s = .next (s.goodFrame seq 0x10 reqActConfig payload) := rfl

theorem exec_actClear (seq : Byte) (payload : List Byte) (s : State) :
    exec (.actClear seq payload) s = .next (s.goodFrame seq 0x13 reqActClear payload) := rfl

/-! ## ACT_CLEAR -/

theorem reqActClear_out_of_range (b : Byte) (h : 15 < b.toNat) (s : State) :
    reqActClear [b] s = refuse .badArg s := by
  simp [reqActClear, indexOf_none 16 b h]

theorem reqActClear_not_faulted {a : ActIx} {s : State} (h : (s.motion.act a).state ≠ .faulted) :
    reqActClear [byteOf a.val] s = refuse .wrongState s := by
  simp [reqActClear, indexOf_byteOf 16 (by decide) a, h]

theorem reqActClear_faulted {a : ActIx} {s : State} (h : (s.motion.act a).state = .faulted) :
    reqActClear [byteOf a.val] s =
      okWith { s := s, e := s.event.setAct a ((s.motion.act a).cleared (s.env.view a)) } [] := by
  simp [reqActClear, indexOf_byteOf 16 (by decide) a, h]

/-- Settles O41: each of the three outcomes of ACT_CLEAR. -/
theorem actClearReturnsToRest : Obligations.ActClearReturnsToRest := by
  intro s seq ht
  refine ⟨fun b hb => ?_, fun a => ⟨fun hne => ?_, fun hf => ?_⟩⟩
  · exact Refuses.of_refuse .badArg (by decide) ht (exec_actClear ..) (reqActClear_out_of_range b hb _)
  · exact Refuses.of_refuse .wrongState (by decide) ht (exec_actClear ..) (reqActClear_not_faulted hne)
  · exact Yields.of_ok _ [] ht (exec_actClear ..) (reqActClear_faulted hf) rfl rfl rfl

/-! ## The fields of a configuration record (R179) -/

theorem durationOf_eq_some {lo hi n : Nat} {b1 b0 : Byte} :
    durationOf lo hi b1 b0 = some n ↔ (lo ≤ n ∧ n ≤ hi) ∧ (word16 b1 b0).toNat = n := by
  unfold durationOf
  generalize (word16 b1 b0).toNat = m
  simp only [Option.ite_none_right_eq_some, Option.some.injEq]
  exact ⟨fun ⟨hm, he⟩ => ⟨he ▸ hm, he⟩, fun ⟨hn, he⟩ => ⟨he ▸ hn, he⟩⟩

/-- A duration in its range is read back from its two bytes. -/
theorem durationOf_bytesOf {lo hi n : Nat} (hlo : lo ≤ n) (hhi : n ≤ hi) (h16 : hi < 65536) :
    ∃ b1 b0, bytesOf n = [b1, b0] ∧ durationOf lo hi b1 b0 = some n := by
  obtain ⟨b1, b0, hb, hn⟩ := word16_bytesOf n (by omega)
  exact ⟨b1, b0, hb, durationOf_eq_some.mpr ⟨⟨hlo, hhi⟩, hn⟩⟩

theorem byteOf_of_indexOf {b : Byte} {a : ActIx} (h : indexOf 16 b = some a) : byteOf a.val = b := by
  unfold indexOf at h
  split at h
  · obtain rfl := Option.some.inj h
    simp [byteOf]
  · cases h

theorem byteOf_act_injective : Function.Injective fun a : ActIx => byteOf a.val := fun a b h => by
  have := indexOf_byteOf 16 (by decide) a
  simp_all [indexOf_byteOf 16 (by decide) b]

theorem distinctActs_iff (as : List ActIx) : distinctActs as = true ↔ as.Nodup := by
  induction as with
  | nil => simp [distinctActs]
  | cons a rest ih => simp [distinctActs, ih]

/-! ## The guards of a configuration record -/

theorem guardBytes_length (gs : List Guard) : (gs.flatMap Guard.bytes).length = 2 * gs.length := by
  induction gs with
  | nil => rfl
  | cons g rest ih => simp [Guard.bytes, ih]; omega

/-- Guards that do not name the configured actuator are read back from their bytes. -/
theorem guardsOf_guardBytes (a : ActIx) (gs : List Guard) (h : a ∉ gs.map (·.other)) :
    guardsOf a (gs.flatMap Guard.bytes) = some gs := by
  induction gs with
  | nil => rfl
  | cons g rest ih =>
    simp only [List.map_cons, List.mem_cons, not_or] at h
    have hg : g.other ≠ a := Ne.symm h.1
    simp [Guard.bytes, guardsOf, indexOf_byteOf 16 (by decide) g.other, end_ofCode_code, ih h.2, hg]

/-- What guards that are accepted were spelt by: bytes in range, none of them the configured actuator's. -/
theorem guardsOf_some {a : ActIx} {bs : List Byte} : ∀ {gs : List Guard}, guardsOf a bs = some gs →
    (∀ g ∈ pairs bs, g.1.toNat ≤ 15 ∧ g.1 ≠ byteOf a.val ∧ g.2.toNat ≤ 1) ∧
      (pairs bs).map (·.1) = (gs.map (·.other)).map fun b => byteOf b.val := by
  induction bs using pairs.induct with
  | case1 b p rest ih =>
    intro gs h
    simp only [guardsOf, Option.bind_eq_bind, Option.bind_eq_some_iff] at h
    obtain ⟨other, hother, required, hrequired, more, hmore, h⟩ := h
    split at h
    · cases h
    · rename_i hne
      obtain rfl := Option.some.inj h
      obtain ⟨hrange, hmap⟩ := ih hmore
      have hb := byteOf_of_indexOf hother
      have hself : b ≠ byteOf a.val := fun e => hne (byteOf_act_injective (hb.trans e))
      have hindex : b.toNat ≤ 15 := by
        by_contra hgt
        simp [indexOf_none 16 b (by omega)] at hother
      have hend : p.toNat ≤ 1 := by
        by_contra hgt
        simp [end_ofCode_none p (by omega)] at hrequired
      refine ⟨fun g hg => ?_, by simp [pairs, hmap, hb]⟩
      obtain rfl | hg := List.mem_cons.mp hg
      · exact ⟨hindex, hself, hend⟩
      · exact hrange g hg
  | case2 bs hbs =>
    intro gs h
    match bs with
    | [] => obtain rfl := Option.some.inj h; simp [pairs]
    | [_] => cases h
    | b :: p :: rest => exact absurd rfl (hbs b p rest)

/-! ## ACT_CONFIG with a record in range -/

theorem anyMove_iff (m : Motion) (p : Move → Bool) :
    m.anyMove p = true ↔ ∃ l, ∃ h ∈ (m.lane l).steps, ∃ mv ∈ h.moves, p mv = true := by
  simp [Motion.anyMove, mem_allLanes]

/-- The BUSY checks of R3. -/
theorem configBusy_iff (m : Motion) (a : ActIx) (k : Kind) :
    m.configBusy a k = true ↔
      (m.act a).owner ≠ .none ∨ (m.act a).moving = true ∨
        (k.managed = false ∧ ∃ l, ∃ h ∈ (m.lane l).steps, ∃ mv ∈ h.moves, mv.act = a) ∨
        (k = .single ∧ ∃ l, ∃ h ∈ (m.lane l).steps, ∃ mv ∈ h.moves, mv.act = a ∧ mv.target = .release) := by
  simp [Motion.configBusy, anyMove_iff, or_assoc]

/-- The record that a configuration's bytes spell is taken up in the order of the checks of R3. -/
theorem reqActConfig_bytes {a : ActIx} {c : ActConfig} (h : ConfigInRange a c) (s : State) :
    reqActConfig (c.bytes a) s =
      if s.modes.mode ≠ .setup then refuse .wrongMode s
      else if s.motion.configBusy a c.kind = true then refuse .busy s
      else okWith { s := s, e := s.event.setAct a ((s.motion.act a).configured (s.env.view a) c) } [] := by
  obtain ⟨htravelLo, htravelHi, hsettle, hgap, hpulseLo, hpulseHi, hcount, hdistinct, hself⟩ := h
  obtain ⟨t1, t0, htb, ht⟩ := durationOf_bytesOf htravelLo htravelHi (by decide)
  obtain ⟨s1, s0, hsb, hs⟩ := durationOf_bytesOf (Nat.zero_le _) hsettle (by decide)
  obtain ⟨g1, g0, hgb, hg⟩ := durationOf_bytesOf (Nat.zero_le _) hgap (by decide)
  obtain ⟨p1, p0, hpb, hp⟩ := durationOf_bytesOf hpulseLo hpulseHi (by decide)
  have hlen := byteOf_toNat c.guards.length (by omega)
  have hconfig : configOf (byteOf a.val) c.kind.code c.sensing.code t1 t0 s1 s0 g1 g0 p1 p0 c.faultAction.code
      c.stopAction.code c.safeAction.code (byteOf c.guards.length) (c.guards.flatMap Guard.bytes) = some (a, c) := by
    simp [configOf, indexOf_byteOf 16 (by decide) a, kind_ofCode_code, sensing_ofCode_code, action_ofCode_code,
      safeAction_ofCode_code, ht, hs, hg, hp, guardsOf_guardBytes a c.guards hself, hlen, hcount,
      (distinctActs_iff _).mpr hdistinct]
  simp [ActConfig.bytes, htb, hsb, hgb, hpb, reqActConfig, hconfig, hlen, guardBytes_length, -List.length_flatMap]

/-! ## ACT_CONFIG with a field out of its range -/

/-- Every field of a payload that spells a record is in its range (R3, R179). -/
theorem configOf_some {a k sn t1 t0 s1 s0 g1 g0 p1 p0 fa st sa count : Byte} {guards : List Byte}
    {r : ActIx × ActConfig} (h : configOf a k sn t1 t0 s1 s0 g1 g0 p1 p0 fa st sa count guards = some r) :
    a.toNat ≤ 15 ∧ k.toNat ≤ 4 ∧ sn.toNat ≤ 3 ∧
      20 ≤ (t1 ++ t0 : BitVec 16).toNat ∧ (t1 ++ t0 : BitVec 16).toNat ≤ 30000 ∧
      (s1 ++ s0 : BitVec 16).toNat ≤ 2000 ∧ (g1 ++ g0 : BitVec 16).toNat ≤ 500 ∧
      20 ≤ (p1 ++ p0 : BitVec 16).toNat ∧ (p1 ++ p0 : BitVec 16).toNat ≤ 1000 ∧
      fa.toNat ≤ 1 ∧ st.toNat ≤ 1 ∧ sa.toNat ≤ 3 ∧ count.toNat ≤ 4 ∧
      (∀ g ∈ pairs guards, g.1.toNat ≤ 15 ∧ g.1 ≠ a ∧ g.2.toNat ≤ 1) ∧ ((pairs guards).map (·.1)).Nodup := by
  simp only [configOf, Option.bind_eq_bind, Option.bind_eq_some_iff, durationOf_eq_some] at h
  obtain ⟨act, hact, kind, hkind, sensing, hsensing, _, ⟨⟨htravelLo, htravelHi⟩, rfl⟩,
    _, ⟨⟨_, hsettle⟩, rfl⟩, _, ⟨⟨_, hgap⟩, rfl⟩, _, ⟨⟨hpulseLo, hpulseHi⟩, rfl⟩, _, hfault, _, hstop, _, hsafe, gs, hgs, h⟩ := h
  split at h
  · cases h
  split at h
  · cases h
  rename_i hcount hdistinct
  obtain ⟨hguards, hothers⟩ := guardsOf_some hgs
  rw [byteOf_of_indexOf hact] at hguards
  refine ⟨?_, ?_, ?_, htravelLo, htravelHi, hsettle, hgap, hpulseLo, hpulseHi, ?_, ?_, ?_, by omega, hguards, ?_⟩
  · by_contra hgt; simp [indexOf_none 16 a (by omega)] at hact
  · by_contra hgt; simp [kind_ofCode_none k (by omega)] at hkind
  · by_contra hgt; simp [sensing_ofCode_none sn (by omega)] at hsensing
  · by_contra hgt; simp [action_ofCode_none fa (by omega)] at hfault
  · by_contra hgt; simp [action_ofCode_none st (by omega)] at hstop
  · by_contra hgt; simp [safeAction_ofCode_none sa (by omega)] at hsafe
  · rw [hothers]
    exact ((distinctActs_iff _).mp (by simpa using hdistinct)).map byteOf_act_injective

theorem reqActConfig_of_configOf_none {a k sn t1 t0 s1 s0 g1 g0 p1 p0 fa st sa count : Byte} {guards : List Byte}
    (hlen : guards.length = 2 * count.toNat)
    (h : configOf a k sn t1 t0 s1 s0 g1 g0 p1 p0 fa st sa count guards = none) (s : State) :
    reqActConfig (a :: k :: sn :: t1 :: t0 :: s1 :: s0 :: g1 :: g0 :: p1 :: p0 :: fa :: st :: sa :: count :: guards) s =
      refuse .badArg s := by
  simp [reqActConfig, hlen, h]

/-- Settles O39: a payload in range spells its record, which then passes the checks of R3 in their order; one out of
range spells none. -/
theorem actConfigReplacesOrRefuses : Obligations.ActConfigReplacesOrRefuses := by
  refine ⟨fun s seq a c ht hc => ⟨fun hmode => ?_, fun hmode hbusy => ?_,
    fun hmode howner hstill hmanaged hsingle x hx => ?_⟩, ?_⟩
  · exact Refuses.of_refuse .wrongMode (by decide) ht (exec_actConfig ..)
      ((reqActConfig_bytes hc _).trans (if_pos hmode))
  · have hbusy' : s.motion.configBusy a c.kind = true := (configBusy_iff ..).mpr hbusy
    exact Refuses.of_refuse .busy (by decide) ht (exec_actConfig ..)
      ((reqActConfig_bytes hc _).trans ((if_neg (not_not_intro hmode)).trans (if_pos hbusy')))
  · have hfree : ¬ s.motion.configBusy a c.kind = true := by
      rw [configBusy_iff]
      rintro (ho | hm | ⟨hk, l, h, hh, mv, hmv, ha⟩ | ⟨hk, l, h, hh, mv, hmv, ha⟩)
      · exact ho howner
      · simp [hstill] at hm
      · exact hmanaged hk l h hh mv hmv ha
      · exact hsingle hk l h hh mv hmv ha
    subst hx
    exact Yields.of_ok _ [] ht (exec_actConfig ..)
      ((reqActConfig_bytes hc _).trans ((if_neg (not_not_intro hmode)).trans (if_neg hfree))) rfl rfl rfl
  · intro s seq a k sn t1 t0 s1 s0 g1 g0 p1 p0 fa st sa count guards ht hlen hout
    refine Refuses.of_refuse .badArg (by decide) ht (exec_actConfig ..) (reqActConfig_of_configOf_none hlen ?_ _)
    refine Option.eq_none_iff_forall_ne_some.mpr fun r hr => ?_
    obtain ⟨ha, hk, hsn, htLo, htHi, hs, hg, hpLo, hpHi, hfa, hst, hsa, hcount, hguards, hdistinct⟩ := configOf_some hr
    have hguard : ¬ ∃ g ∈ pairs guards, 15 < g.1.toNat ∨ g.1 = a ∨ 1 < g.2.toNat := by
      rintro ⟨g, hmem, hbad⟩
      obtain ⟨hindex, hself, hend⟩ := hguards g hmem
      simp only [hself, false_or] at hbad
      omega
    simp only [hguard, hdistinct, not_true_eq_false, or_false] at hout
    omega

end Sys2Proof.Proofs.ActuatorRequests
end

section
/-! PROOFS of the family 02, lanes and the step pool: STEP_POST (R37, R38), STEP_CANCEL and LANE_FLUSH (R61, R62), LANE_PAUSE
and LANE_ABORT (R56, R60). -/

namespace Sys2Proof.Proofs.LaneRequests

open Sys2Proof.Machine Sys2Proof.Safety Sys2Proof.Proofs.ActuatorRequests

/-! ## The meaning of the five commands -/

theorem exec_stepPost (seq : Byte) (payload : List Byte) (s : State) :
    exec (.stepPost seq payload) s = .next (s.goodFrame seq 0x21 reqStepPost payload) := rfl

theorem exec_stepCancel (seq : Byte) (payload : List Byte) (s : State) :
    exec (.stepCancel seq payload) s = .next (s.goodFrame seq 0x22 reqStepCancel payload) := rfl

theorem exec_laneFlush (seq : Byte) (payload : List Byte) (s : State) :
    exec (.laneFlush seq payload) s = .next (s.goodFrame seq 0x23 reqLaneFlush payload) := rfl

theorem exec_lanePause (seq : Byte) (payload : List Byte) (s : State) :
    exec (.lanePause seq payload) s = .next (s.goodFrame seq 0x24 reqLanePause payload) := rfl

theorem exec_laneAbort (seq : Byte) (payload : List Byte) (s : State) :
    exec (.laneAbort seq payload) s = .next (s.goodFrame seq 0x26 reqLaneAbort payload) := rfl

/-- A request answered OK that works on the heart of the part alone. -/
theorem yields_of_event {c : Instr} {s : State} {seq kind : Byte} {req : Request} {payload content : List Byte}
    {e : Event} (ht : Takes s seq) (hx : exec c s = .next (s.goodFrame seq kind req payload))
    (hq : req payload (received s) = okWith { s := received s, e := e } content) (hs : e.started = []) :
    Yields c s { answering s seq kind .ok content with motion := e.m } e.raised :=
  Yields.of_ok _ content ht hx hq hs rfl rfl

/-! ## One lane written, with the free count and the start queue -/

/-- An event whose lane `l` is left as `x`, with `free` entries in the pool and the start queue `queue`. -/
def laneWritten (l : LaneIx) (x : Lane) (free : Nat) (queue : List QEntry) (e : Event) : Event :=
  { e with m := { e.m.setLane l x with poolFree := free, queue := queue } }

section

variable (l : LaneIx) (x : Lane) (free : Nat) (queue : List QEntry) (e : Event)

@[simp] theorem lane_laneWritten : (laneWritten l x free queue e).m.lane l = x := lane_setLane_self e.m l x

@[simp] theorem setLane_laneWritten (y : Lane) :
    (laneWritten l x free queue e).setLane l y = laneWritten l y free queue e := by
  simp [laneWritten, Event.setLane, Motion.setLane]

@[simp] theorem countBytes_laneWritten :
    (laneWritten l x free queue e).m.countBytes l = [byteOf free, byteOf x.steps.length] := by
  rw [Motion.countBytes, Motion.held, lane_laneWritten]
  rfl

theorem evaluate_laneWritten (v : Env) (h : x.steps ≠ []) :
    (laneWritten l x free queue e).evaluate v l =
      laneWritten l (evaluatedIn v.mode x) free (queue ++ entryOf v.mode l x) e := by
  rw [evaluate_eq v l _ (.inr (by simpa using h)), lane_laneWritten]
  simp [laneWritten, Motion.setLane]

end

theorem evaluatedIn_length (mode : Mode) (l : Lane) : (evaluatedIn mode l).steps.length = l.steps.length := by
  unfold evaluatedIn evaluatedLane queuedLane heldLane
  cases hs : l.steps with
  | nil => by_cases hm : mode = .run <;> simp [hm, hs]
  | cons h rest =>
    by_cases hm : mode = .run
    · by_cases hj : joinsAtOnce h <;> simp [hm, hj]
    · simp [hm, hs]

/-! ## A lane held, cut short or without its head -/

theorem holdLane_eq (l : LaneIx) (st : LaneState) (e : Event) :
    e.holdLane l st =
      laneWritten l (heldLane st (e.m.lane l)) e.m.poolFree (e.m.queue.filter fun q => q.lane ≠ l) e := rfl

/-- The `n` steps that a lane gives up go back to the pool (R36). -/
theorem keepSteps_eq {l : LaneIx} {steps : List Machine.Step} {n : Nat} {e : Event}
    (h : (e.m.lane l).steps.length = steps.length + n) :
    e.keepSteps l steps = laneWritten l { e.m.lane l with steps := steps } (e.m.poolFree + n) e.m.queue e := by
  have hgone : (e.m.lane l).steps.length - steps.length = n := by omega
  unfold Event.keepSteps
  rw [hgone]
  rfl

/-- The same for a lane that leaves the start queue besides (R69). -/
theorem leaveQueue_keepSteps {l : LaneIx} {steps : List Machine.Step} {n : Nat} {e : Event}
    (h : (e.m.lane l).steps.length = steps.length + n) :
    (e.leaveQueue l).keepSteps l steps =
      laneWritten l { e.m.lane l with steps := steps } (e.m.poolFree + n) (e.m.queue.filter fun q => q.lane ≠ l) e :=
  keepSteps_eq (e := e.leaveQueue l) h

/-- A lane that loses its head evaluates the next one, or is EMPTY (R59, R61). -/
def headDropped (mode : Mode) (ln : Lane) : Lane :=
  if ln.steps = [] then { ln with state := .empty, delayTimer := none } else evaluatedIn mode ln

theorem headDropped_eq {ln : Lane} {rest : List Machine.Step} (h : ln.steps = rest) (mode : Mode) :
    headDropped mode ln =
      if rest = [] then { ln with state := .empty, delayTimer := none } else evaluatedIn mode ln := by
  subst h
  rfl

theorem headDropped_length (mode : Mode) (ln : Lane) : (headDropped mode ln).steps.length = ln.steps.length := by
  unfold headDropped
  split
  · rfl
  · exact evaluatedIn_length ..

theorem dropHead_eq {l : LaneIx} {h : Machine.Step} {rest : List Machine.Step} {e : Event} {ln : Lane}
    (hs : (e.m.lane l).steps = h :: rest) (hln : ln = { e.m.lane l with steps := rest }) (v : Env) :
    e.dropHead v l = laneWritten l (headDropped v.mode ln) (e.m.poolFree + 1)
      ((e.m.queue.filter fun q => q.lane ≠ l) ++ entryOf v.mode l ln) e := by
  have hkeep : (e.leaveQueue l).keepSteps l ((e.leaveQueue l).m.lane l).steps.tail =
      laneWritten l ln (e.m.poolFree + 1) (e.m.queue.filter fun q => q.lane ≠ l) e := by
    have htail : ((e.leaveQueue l).m.lane l).steps.tail = rest := congrArg List.tail hs
    rw [htail, leaveQueue_keepSteps (n := 1) (by rw [hs]; rfl), hln]
  have hsteps : ln.steps = rest := by rw [hln]
  unfold Event.dropHead
  dsimp only
  rw [hkeep, lane_laneWritten, setLane_laneWritten, headDropped_eq hsteps, hsteps]
  cases rest with
  | nil => simp [entryOf, hsteps]
  | cons g rest => simp [evaluate_laneWritten, hsteps]

/-! ## Events that change actuators alone -/

/-- From `e` to `e'` nothing but actuators has changed. -/
def ActsAlone (e e' : Event) : Prop := e' = { e with m := { e.m with acts := e'.m.acts } }

theorem ActsAlone.refl (e : Event) : ActsAlone e e := rfl

theorem ActsAlone.trans {e f g : Event} (h1 : ActsAlone e f) (h2 : ActsAlone f g) : ActsAlone e g := by
  unfold ActsAlone at *
  rw [h2, h1]

theorem ActsAlone.setAct (e : Event) (a : ActIx) (x : Actuator) : ActsAlone e (e.setAct a x) := rfl

theorem ActsAlone.foldl {α : Type} {f : Event → α → Event} (h : ∀ e x, ActsAlone e (f e x)) (xs : List α) :
    ∀ e, ActsAlone e (xs.foldl f e) := by
  induction xs with
  | nil => exact ActsAlone.refl
  | cons x xs ih => exact fun e => (h e x).trans (ih _)

theorem ActsAlone.lane {e e' : Event} (h : ActsAlone e e') (l : LaneIx) : e'.m.lane l = e.m.lane l := by rw [h]; rfl

theorem ActsAlone.queue {e e' : Event} (h : ActsAlone e e') : e'.m.queue = e.m.queue := by rw [h]

theorem ActsAlone.marks {e e' : Event} (h : ActsAlone e e') : e'.m.marks = e.m.marks := by rw [h]

theorem ActsAlone.poolFree {e e' : Event} (h : ActsAlone e e') : e'.m.poolFree = e.m.poolFree := by rw [h]

theorem ActsAlone.raised {e e' : Event} (h : ActsAlone e e') : e'.raised = e.raised := by rw [h]

theorem stopActs_actsAlone (v : Env) (rs : List (ActIx × MoveResult)) (e : Event) : ActsAlone e (e.stopActs v rs) := by
  refine ActsAlone.foldl (fun e p => ?_) rs e
  split
  · exact .setAct ..
  · exact .refl _

theorem releaseOwned_actsAlone (l : LaneIx) (moves : List Move) (e : Event) : ActsAlone e (e.releaseOwned l moves) := by
  refine ActsAlone.foldl (fun e mv => ?_) moves e
  dsimp only
  split
  · exact .setAct ..
  · exact .refl _

/-! ## Stops and releases, actuator by actuator -/

theorem tracked_fields (v : View) (a : Actuator) :
    ∃ p s, tracked v a = { a with position := p, supervised := s } := by
  unfold tracked
  split <;> exact ⟨_, _, rfl⟩

/-- A stopped actuator rests without owner, target or timers (R27). -/
theorem stoppedBy_rests (v : View) (c : Action) (a : Actuator) :
    (stoppedBy v c a).state = .rest ∧ (stoppedBy v c a).owner = .none ∧ (stoppedBy v c a).target = none ∧
      (stoppedBy v c a).gapTimer = none ∧ (stoppedBy v c a).travelTimer = none ∧
      (stoppedBy v c a).settleTimer = none := by
  unfold stoppedBy
  obtain ⟨p, s, h⟩ := tracked_fields v { coilsUnder c a with
    state := .rest, target := none, owner := .none, entryTime := v.time
    gapTimer := none, travelTimer := none, settleTimer := none }
  rw [h]
  exact ⟨rfl, rfl, rfl, rfl, rfl, rfl⟩

theorem stop_of_moving {a : Actuator} (h : a.moving = true) (v : View) :
    a.stop v = stoppedBy v a.cfg.stopAction a := by
  simp [stop_eq, h]

/-- A stop order leaves nothing for a second one (R27). -/
theorem stop_not_moving (v : View) (a : Actuator) : (a.stop v).moving = false := by
  rw [stop_eq]
  split
  · simp [Actuator.moving, (stoppedBy_rests v a.cfg.stopAction a).1]
  · simp_all

/-- Exactly the actuators with a PENDING move take the stop order. -/
theorem act_stopActs (v : Env) (b : ActIx) (rs : List (ActIx × MoveResult)) : ∀ e : Event,
    (e.stopActs v rs).m.act b = if (b, .pending) ∈ rs then (e.m.act b).stop (v.view b) else e.m.act b := by
  induction rs with
  | nil => intro e; rfl
  | cons p rs ih =>
    intro e
    obtain ⟨a, r⟩ := p
    refine (ih _).trans ?_
    dsimp only
    by_cases hp : r = .pending
    · by_cases hb : b = a
      · subst hb hp
        simp [stop_rest _ _ (stop_not_moving _ _)]
      · simp [hp, hb, act_setAct_ne _ _ _ _ hb]
    · simp [hp, Ne.symm hp]

/-- Exactly the actuators of the moves that the lane still owns are given up. -/
theorem act_releaseOwned (l : LaneIx) (b : ActIx) (moves : List Move) : ∀ e : Event,
    (e.releaseOwned l moves).m.act b =
      if (∃ mv ∈ moves, mv.act = b) ∧ (e.m.act b).owner = .lane l then { e.m.act b with owner := .none }
      else e.m.act b := by
  induction moves with
  | nil => intro e; simp [Event.releaseOwned]
  | cons mv moves ih =>
    intro e
    refine (ih _).trans ?_
    by_cases hb : mv.act = b
    · subst hb
      by_cases ho : (e.m.act mv.act).owner = .lane l <;> simp [ho]
    · by_cases ho : (e.m.act mv.act).owner = .lane l
      · simp [ho, hb, act_setAct_ne _ _ _ _ (Ne.symm hb)]
      · simp [ho, hb]

/-! ## The abort of a RUNNING step (R60) -/

/-- Actuator `b` as the abort of the step `h` of a lane leaves it: stopped under a PENDING move, and given up by the lane. -/
def abortedAct (v : View) (l : LaneIx) (h : Machine.Step) (b : ActIx) (a : Actuator) : Actuator :=
  let x := if (b, .pending) ∈ h.results then a.stop v else a
  if (∃ mv ∈ h.moves, mv.act = b) ∧ x.owner = .lane l then { x with owner := .none } else x

/-- A lane whose step `h` has been aborted at its head. -/
def abortedLane (h : Machine.Step) (rest : List Machine.Step) (l : Lane) : Lane :=
  { l with
    state := .faulted, fault := some .aborted, failedAct := none, pausePending := false, delayTimer := none
    steps := { allStopped h with run := .aborted } :: rest }

/-- The notice of an aborted step. -/
def abortNotice (l : LaneIx) (h : Machine.Step) : Raised :=
  { cls := .laneFault, source := some l.val, detail := LaneFault.aborted.code, tag := some h.tag }

/-- What the abort of a step makes of an event. -/
structure Aborts (v : Env) (l : LaneIx) (h : Machine.Step) (rest : List Machine.Step) (e e' : Event) : Prop where
  act : ∀ b, e'.m.act b = abortedAct (v.view b) l h b (e.m.act b)
  lane : e'.m.lane l = abortedLane h rest (e.m.lane l)
  others : ∀ j, j ≠ l → e'.m.lane j = e.m.lane j
  queue : e'.m.queue = e.m.queue
  marks : e'.m.marks = e.m.marks
  poolFree : e'.m.poolFree = e.m.poolFree
  raised : e'.raised = e.raised ++ [abortNotice l h]
  started : e'.started = e.started

theorem stopPending_eq {l : LaneIx} {h : Machine.Step} {rest : List Machine.Step} {e : Event}
    (hs : (e.m.lane l).steps = h :: rest) (v : Env) :
    e.stopPending v l =
      (e.stopActs v h.results).setLane l { e.m.lane l with steps := allStopped h :: rest } := by
  unfold Event.stopPending
  rw [hs]
  dsimp only
  rw [(stopActs_actsAlone v h.results e).lane l, mapHead_cons _ _ _ _ hs]
  rfl

theorem faultLane_eq {l : LaneIx} {h : Machine.Step} {rest : List Machine.Step} {e : Event}
    (hs : (e.m.lane l).steps = h :: rest) (run : RunStatus) (c : LaneFault) (failed : Option ActIx) :
    e.faultLane l run c failed =
      (e.setLane l { e.m.lane l with
        state := .faulted, steps := { h with run := run } :: rest, fault := some c, failedAct := failed,
        pausePending := false, delayTimer := none }).raise
        { cls := .laneFault, source := some l.val, detail := c.code, tag := some h.tag } := by
  unfold Event.faultLane
  rw [hs]

theorem abortStep_aborts {l : LaneIx} {h : Machine.Step} {rest : List Machine.Step} {e : Event}
    (hs : (e.m.lane l).steps = h :: rest) (v : Env) : Aborts v l h rest e (e.abortStep v l) := by
  have hframe := abortStep_frame v l e
  have heq : e.abortStep v l = ((e.stopPending v l).releaseOwned l h.moves).faultLane l .aborted .aborted none := by
    unfold Event.abortStep
    rw [hs]
  have hstop := stopActs_actsAlone v h.results e
  have hrelease := releaseOwned_actsAlone l h.moves (e.stopPending v l)
  have hlane : ((e.stopPending v l).releaseOwned l h.moves).m.lane l =
      { e.m.lane l with steps := allStopped h :: rest } := by
    rw [hrelease.lane, stopPending_eq hs]
    exact lane_setLane_self ..
  rw [faultLane_eq (by rw [hlane]), hlane] at heq
  refine { act := fun b => ?_, lane := ?_, others := hframe.lanes, queue := ?_, marks := ?_, poolFree := ?_,
           raised := ?_, started := hframe.started } <;> rw [heq]
  · rw [m_raise, m_setLane, act_setLane, act_releaseOwned, stopPending_eq hs, m_setLane, act_setLane, act_stopActs]
    rfl
  · rw [m_raise, m_setLane, lane_setLane_self]
    rfl
  · rw [m_raise, m_setLane, queue_setLane, hrelease.queue, stopPending_eq hs, m_setLane, queue_setLane, hstop.queue]
  · rw [m_raise, m_setLane, marks_setLane, hrelease.marks, stopPending_eq hs, m_setLane, marks_setLane, hstop.marks]
  · rw [m_raise, m_setLane, poolFree_setLane, hrelease.poolFree, stopPending_eq hs, m_setLane, poolFree_setLane,
      hstop.poolFree]
  · rw [raised_raise, raised_setLane, hrelease.raised, stopPending_eq hs, raised_setLane, hstop.raised]
    rfl

/-! ### The actuators of an aborted step -/

theorem abortedAct_not_owned {h : Machine.Step} {b : ActIx} (hb : ∃ mv ∈ h.moves, mv.act = b) (v : View) (l : LaneIx)
    (a : Actuator) : (abortedAct v l h b a).owner ≠ .lane l := by
  unfold abortedAct
  generalize (if (b, MoveResult.pending) ∈ h.results then a.stop v else a) = x
  by_cases ho : x.owner = .lane l <;> simp [hb, ho]

theorem abortedAct_pending {h : Machine.Step} {b : ActIx} {a : Actuator} (hb : (b, .pending) ∈ h.results)
    (hm : a.moving = true) (v : View) (l : LaneIx) : abortedAct v l h b a = stoppedBy v a.cfg.stopAction a := by
  simp [abortedAct, hb, stop_of_moving hm, (stoppedBy_rests v a.cfg.stopAction a).2.1]

theorem abortedAct_settled {h : Machine.Step} {b : ActIx} (hb : (b, .pending) ∉ h.results)
    (hmv : ∃ mv ∈ h.moves, mv.act = b) (v : View) (l : LaneIx) (a : Actuator) :
    abortedAct v l h b a = { a with owner := if a.owner = .lane l then .none else a.owner } := by
  simp only [abortedAct, hb, hmv, if_false, true_and]
  split <;> rfl

theorem abortedAct_unnamed {h : Machine.Step} {b : ActIx} (hmv : ∀ mv ∈ h.moves, mv.act ≠ b)
    (hr : ∀ p ∈ h.results, p.1 ≠ b) (v : View) (l : LaneIx) (a : Actuator) : abortedAct v l h b a = a := by
  have hp : (b, MoveResult.pending) ∉ h.results := fun hb => hr _ hb rfl
  have hm : ¬ ∃ mv ∈ h.moves, mv.act = b := fun ⟨mv, hmem, he⟩ => hmv mv hmem he
  simp only [abortedAct, hp, hm, if_false, false_and]

/-! ## LANE_PAUSE and LANE_ABORT -/

theorem reqLanePause_out_of_range {b : Byte} (h : 3 < b.toNat) (s : State) :
    reqLanePause [b] s = refuse .badArg s := by
  simp [reqLanePause, indexOf_none 4 b h]

theorem reqLaneAbort_out_of_range {b : Byte} (h : 3 < b.toNat) (s : State) :
    reqLaneAbort [b] s = refuse .badArg s := by
  simp [reqLaneAbort, indexOf_none 4 b h]

theorem reqLanePause_none {l : LaneIx} {s : State} (h : s.event.pause l = none) :
    reqLanePause [byteOf l.val] s = refuse .wrongState s := by
  simp [reqLanePause, indexOf_byteOf 4 (by decide) l, h]

theorem reqLanePause_some {l : LaneIx} {s : State} {e : Event} (h : s.event.pause l = some e) :
    reqLanePause [byteOf l.val] s = okWith { s := s, e := e } [] := by
  simp [reqLanePause, indexOf_byteOf 4 (by decide) l, h]

theorem reqLaneAbort_none {l : LaneIx} {s : State} (h : s.event.abort s.env l = none) :
    reqLaneAbort [byteOf l.val] s = refuse .wrongState s := by
  simp [reqLaneAbort, indexOf_byteOf 4 (by decide) l, h]

theorem reqLaneAbort_some {l : LaneIx} {s : State} {e : Event} (h : s.event.abort s.env l = some e) :
    reqLaneAbort [byteOf l.val] s = okWith { s := s, e := e } [] := by
  simp [reqLaneAbort, indexOf_byteOf 4 (by decide) l, h]

theorem pause_of_empty {l : LaneIx} {e : Event} (h : (e.m.lane l).state = .empty) :
    e.pause l = some (e.setLane l { e.m.lane l with state := .paused }) := by
  simp [Event.pause, h]

theorem pause_of_running {l : LaneIx} {e : Event} (h : (e.m.lane l).state = .running) :
    e.pause l = some (e.setLane l { e.m.lane l with pausePending := true }) := by
  simp [Event.pause, h]

/-- A lane that waits to start is held by a pause and by an abort alike (R56). -/
theorem pause_abort_of_waiting {l : LaneIx} {e : Event}
    (h : (e.m.lane l).state = .waiting ∨ (e.m.lane l).state = .queued) (v : Env) :
    e.pause l = some (e.holdLane l .paused) ∧ e.abort v l = some (e.holdLane l .paused) := by
  obtain h | h := h <;> simp [Event.pause, Event.abort, h]

/-- A lane that has stopped already takes neither a pause nor an abort (R56, R60). -/
theorem pause_abort_of_stopped {l : LaneIx} {e : Event}
    (h : (e.m.lane l).state = .paused ∨ (e.m.lane l).state = .faulted) (v : Env) :
    e.pause l = none ∧ e.abort v l = none := by
  obtain h | h := h <;> simp [Event.pause, Event.abort, h]

theorem abort_of_empty {l : LaneIx} {e : Event} (h : (e.m.lane l).state = .empty) (v : Env) : e.abort v l = none := by
  simp [Event.abort, h]

theorem abort_of_running {l : LaneIx} {e : Event} (h : (e.m.lane l).state = .running) (v : Env) :
    e.abort v l = some (e.abortStep v l) := by
  simp [Event.abort, h]

/-- Settles O48: LANE_PAUSE and LANE_ABORT by the state of the lane; what an abort of a RUNNING lane leaves of each
actuator is `abortedAct`. -/
theorem lanePauseAndLaneAbort : Obligations.LanePauseAndLaneAbort := by
  refine ⟨fun s seq ht => ⟨fun b hb => ⟨?_, ?_⟩, fun l => ⟨fun hst m hm => ?_, fun hst => ⟨?_, ?_⟩, fun hst => ?_,
    fun hst => ⟨?_, ?_⟩⟩⟩, fun s seq l h rest ht hst hs => ?_⟩
  · exact Refuses.of_refuse .badArg (by decide) ht (exec_lanePause ..) (reqLanePause_out_of_range hb _)
  · exact Refuses.of_refuse .badArg (by decide) ht (exec_laneAbort ..) (reqLaneAbort_out_of_range hb _)
  · obtain ⟨hpause, habort⟩ := pause_abort_of_waiting (e := (received s).event) hst s.env
    rw [holdLane_eq] at hpause habort
    subst hm
    exact ⟨yields_of_event ht (exec_lanePause ..) (reqLanePause_some hpause) rfl,
      yields_of_event ht (exec_laneAbort ..) (reqLaneAbort_some habort) rfl⟩
  · exact yields_of_event ht (exec_lanePause ..)
      (reqLanePause_some (pause_of_empty (e := (received s).event) hst)) rfl
  · exact Refuses.of_refuse .wrongState (by decide) ht (exec_laneAbort ..)
      (reqLaneAbort_none (abort_of_empty (e := (received s).event) hst _))
  · exact yields_of_event ht (exec_lanePause ..)
      (reqLanePause_some (pause_of_running (e := (received s).event) hst)) rfl
  · exact Refuses.of_refuse .wrongState (by decide) ht (exec_lanePause ..)
      (reqLanePause_none (pause_abort_of_stopped (e := (received s).event) hst s.env).1)
  · exact Refuses.of_refuse .wrongState (by decide) ht (exec_laneAbort ..)
      (reqLaneAbort_none (pause_abort_of_stopped (e := (received s).event) hst s.env).2)
  · have habort := abort_of_running (e := (received s).event) hst s.env
    have hleft : Aborts s.env l h rest s.event ((received s).event.abortStep s.env l) :=
      abortStep_aborts (e := (received s).event) hs s.env
    have hyields := yields_of_event ht (exec_laneAbort ..) (reqLaneAbort_some habort) hleft.started
    rw [hleft.raised] at hyields
    refine ⟨_, hyields, rfl, hleft.lane, hleft.others, fun mv hmv => ?_, fun a ha hm => ?_, fun a ha hm => ?_,
      fun mv hmv hp => ?_, fun a hmv hr => ?_, hleft.queue, hleft.marks, hleft.poolFree⟩
    · rw [hleft.act]
      exact abortedAct_not_owned ⟨mv, hmv, rfl⟩ _ _ _
    · rw [hleft.act, m_event, abortedAct_pending ha hm]
      exact stoppedBy_rests ..
    · rw [hleft.act, m_event, abortedAct_pending ha hm]
    · rw [hleft.act, m_event, abortedAct_settled hp ⟨mv, hmv, rfl⟩]
    · rw [hleft.act, m_event, abortedAct_unnamed hmv hr]

/-! ## STEP_CANCEL (R61) -/

theorem dropTag_none {tag : Tag} {steps : List Machine.Step} (h : ∀ g ∈ steps, g.tag ≠ tag) :
    dropTag tag steps = none := by
  induction steps with
  | nil => rfl
  | cons g rest ih =>
    obtain ⟨hg, hrest⟩ := List.forall_mem_cons.mp h
    simp [dropTag, hg, ih hrest]

theorem dropTag_of_cutsTag {tag : Tag} {steps kept : List Machine.Step} (h : CutsTag tag steps kept) :
    dropTag tag steps = some kept := by
  obtain ⟨pre, g, post, rfl, hg, hpre, rfl⟩ := h
  induction pre with
  | nil => simp [dropTag, hg]
  | cons p pre ih =>
    obtain ⟨hp, hpre⟩ := List.forall_mem_cons.mp hpre
    simp [dropTag, hp, ih hpre]

theorem cutsTag_length {tag : Tag} {steps kept : List Machine.Step} (h : CutsTag tag steps kept) :
    steps.length = kept.length + 1 := by
  obtain ⟨pre, g, post, rfl, _, _, rfl⟩ := h
  simp [Nat.add_assoc]

/-- A cancel that passes over the head takes the first step behind it that carries the tag. -/
theorem cancel_behind_head {l : LaneIx} {tag : Tag} {h : Machine.Step} {rest : List Machine.Step} {e : Event}
    (hs : (e.m.lane l).steps = h :: rest)
    (hover : h.tag ≠ tag ∨ (e.m.lane l).state = .running ∨ (e.m.lane l).state = .faulted) (v : Env) :
    e.cancel v l tag = (dropTag tag rest).map fun kept => e.keepSteps l (h :: kept) := by
  unfold Event.cancel Lane.headKept
  rw [hs]
  obtain hne | hst | hst := hover
  · simp [hne]
  · simp [hst]
  · simp [hst]

theorem cancel_none {l : LaneIx} {tag : Tag} {e : Event} (h : ∀ g ∈ (e.m.lane l).steps, g.tag ≠ tag) (v : Env) :
    e.cancel v l tag = none := by
  cases hs : (e.m.lane l).steps with
  | nil => simp [Event.cancel, hs]
  | cons g rest =>
    obtain ⟨hg, hrest⟩ := List.forall_mem_cons.mp (hs ▸ h)
    simp [cancel_behind_head hs (.inl hg), dropTag_none hrest]

theorem cancel_head_of_paused {l : LaneIx} {h : Machine.Step} {rest : List Machine.Step} {e : Event}
    (hs : (e.m.lane l).steps = h :: rest) (hst : (e.m.lane l).state = .paused) (v : Env) :
    e.cancel v l h.tag = some (e.keepSteps l rest) := by
  simp [Event.cancel, Lane.headKept, hs, hst]

theorem cancel_head_of_waiting {l : LaneIx} {h : Machine.Step} {rest : List Machine.Step} {e : Event}
    (hs : (e.m.lane l).steps = h :: rest) (hst : (e.m.lane l).state = .waiting ∨ (e.m.lane l).state = .queued)
    (v : Env) : e.cancel v l h.tag = some (e.dropHead v l) := by
  obtain hst | hst := hst <;> simp [Event.cancel, Lane.headKept, hs, hst]

theorem reqStepCancel_out_of_range {b : Byte} (h : 3 < b.toNat) (t1 t0 : Byte) (s : State) :
    reqStepCancel [b, t1, t0] s = refuse .badArg s := by
  simp [reqStepCancel, indexOf_none 4 b h]

theorem reqStepCancel_none {l : LaneIx} {t1 t0 : Byte} {s : State} (h : s.event.cancel s.env l (t1 ++ t0) = none) :
    reqStepCancel [byteOf l.val, t1, t0] s = refuse .notFound s := by
  simp [reqStepCancel, indexOf_byteOf 4 (by decide) l, word16_eq, h]

theorem reqStepCancel_some {l : LaneIx} {t1 t0 : Byte} {s : State} {e : Event} {content : List Byte}
    (h : s.event.cancel s.env l (t1 ++ t0) = some e) (hc : e.m.countBytes l = content) :
    reqStepCancel [byteOf l.val, t1, t0] s = okWith { s := s, e := e } content := by
  simp [reqStepCancel, indexOf_byteOf 4 (by decide) l, word16_eq, h, hc]

/-! ## LANE_FLUSH (R62) -/

theorem flush_behind_head {l : LaneIx} {h : Machine.Step} {rest : List Machine.Step} {e : Event}
    (hs : (e.m.lane l).steps = h :: rest)
    (hst : (e.m.lane l).state = .running ∨ (e.m.lane l).state = .faulted) : e.flush l = e.keepSteps l [h] := by
  obtain hst | hst := hst <;> simp [Event.flush, hs, hst]

theorem flush_of_paused {l : LaneIx} {e : Event} (hst : (e.m.lane l).state = .paused) :
    e.flush l = e.keepSteps l [] := by
  simp [Event.flush, hst]

theorem flush_of_empty {l : LaneIx} {e : Event} (hst : (e.m.lane l).state = .empty) : e.flush l = e := by
  simp [Event.flush, hst]

/-- A lane that waits to start is emptied and leaves the start queue. -/
theorem flush_of_waiting {l : LaneIx} {e : Event}
    (hst : (e.m.lane l).state = .waiting ∨ (e.m.lane l).state = .queued) :
    e.flush l = laneWritten l { e.m.lane l with steps := [], state := .empty, delayTimer := none }
      (e.m.poolFree + (e.m.lane l).steps.length) (e.m.queue.filter fun q => q.lane ≠ l) e := by
  obtain hst | hst := hst <;>
    simp [Event.flush, hst, leaveQueue_keepSteps (steps := []) (n := (e.m.lane l).steps.length) (e := e) (l := l)]

theorem reqLaneFlush_out_of_range {b : Byte} (h : 3 < b.toNat) (s : State) :
    reqLaneFlush [b] s = refuse .badArg s := by
  simp [reqLaneFlush, indexOf_none 4 b h]

theorem reqLaneFlush_eq {l : LaneIx} {s : State} {e : Event} {content : List Byte} (h : s.event.flush l = e)
    (hc : e.m.countBytes l = content) : reqLaneFlush [byteOf l.val] s = okWith { s := s, e := e } content := by
  simp [reqLaneFlush, indexOf_byteOf 4 (by decide) l, h, hc]

/-- Settles O47: STEP_CANCEL by what it finds of the tag, LANE_FLUSH by the state of the lane. -/
theorem stepCancelAndLaneFlushReturnSteps : Obligations.StepCancelAndLaneFlushReturnSteps := by
  refine ⟨fun s seq t1 t0 ht => ⟨fun b hb => ?_, fun l tag htag => ?_⟩, fun s seq ht => ⟨fun b hb => ?_, fun l => ?_⟩⟩
  · exact Refuses.of_refuse .badArg (by decide) ht (exec_stepCancel ..) (reqStepCancel_out_of_range hb ..)
  · subst htag
    refine ⟨fun hno => ?_, fun h rest hs hst hno => ?_, fun h rest kept hs hover hcut => ?_,
      fun h rest hs htag hst => ?_, fun h rest hs htag hst ln hln => ?_⟩
    · exact Refuses.of_refuse .notFound (by decide) ht (exec_stepCancel ..)
        (reqStepCancel_none (cancel_none (e := (received s).event) hno _))
    · refine Refuses.of_refuse .notFound (by decide) ht (exec_stepCancel ..) (reqStepCancel_none ?_)
      rw [cancel_behind_head (e := (received s).event) hs (.inr hst), dropTag_none hno]
      rfl
    · have hcancel := cancel_behind_head (e := (received s).event) hs hover s.env
      rw [dropTag_of_cutsTag hcut, Option.map_some,
        keepSteps_eq (n := 1) (by simp [hs, cutsTag_length hcut])] at hcancel
      exact yields_of_event ht (exec_stepCancel ..) (reqStepCancel_some hcancel (countBytes_laneWritten ..)) rfl
    · have hcancel := cancel_head_of_paused (e := (received s).event) hs hst s.env
      rw [htag, keepSteps_eq (n := 1) (by simp [hs])] at hcancel
      exact yields_of_event ht (exec_stepCancel ..) (reqStepCancel_some hcancel (countBytes_laneWritten ..)) rfl
    · have hcancel := cancel_head_of_waiting (e := (received s).event) hs hst s.env
      rw [htag, dropHead_eq hs hln] at hcancel
      have hsteps : ln.steps = rest := by rw [hln]
      have hyields := yields_of_event ht (exec_stepCancel ..)
        (reqStepCancel_some hcancel (countBytes_laneWritten ..)) rfl
      rw [headDropped_length, hsteps, headDropped_eq hsteps] at hyields
      exact hyields
  · exact Refuses.of_refuse .badArg (by decide) ht (exec_laneFlush ..) (reqLaneFlush_out_of_range hb _)
  · refine ⟨fun h rest hs hst => ?_, fun hst => ?_, fun hst => ?_, fun hst hs => ?_⟩
    · have hflush := flush_behind_head (e := (received s).event) hs hst
      rw [keepSteps_eq (n := rest.length) (by simp [hs, Nat.add_comm])] at hflush
      exact yields_of_event ht (exec_laneFlush ..) (reqLaneFlush_eq hflush (countBytes_laneWritten ..)) rfl
    · have hflush := flush_of_paused (e := (received s).event) hst
      rw [keepSteps_eq (n := (s.motion.lane l).steps.length) (by simp)] at hflush
      exact yields_of_event ht (exec_laneFlush ..) (reqLaneFlush_eq hflush (countBytes_laneWritten ..)) rfl
    · exact yields_of_event ht (exec_laneFlush ..)
        (reqLaneFlush_eq (flush_of_waiting (e := (received s).event) hst) (countBytes_laneWritten ..)) rfl
    · have hcount : s.motion.countBytes l = [byteOf s.motion.poolFree, 0] := by
        rw [Motion.countBytes, Motion.held, hs]
        rfl
      exact yields_of_event ht (exec_laneFlush ..)
        (reqLaneFlush_eq (flush_of_empty (e := (received s).event) hst) hcount) rfl

/-! ## A posting in range (R37, R180) -/

theorem indexOf_of_val {n : Nat} {i : Fin n} {b : Byte} (h : i.val = b.toNat) : indexOf n b = some i := by
  simp [indexOf, ← h]

theorem condOf_condBytes {cond : StartCond} {code a3 a2 a1 a0 : Byte} (h : CondBytes cond code a3 a2 a1 a0) :
    condOf code a3 a2 a1 a0 = some cond := by
  cases cond with
  | next =>
    obtain rfl := h
    rfl
  | delay d =>
    obtain ⟨rfl, rfl, hd⟩ := h
    exact if_pos hd
  | atTime t =>
    obtain ⟨rfl, rfl⟩ := h
    rfl
  | onInput i level =>
    obtain ⟨rfl, hi, rfl⟩ := h
    simp [condOf, indexOf_of_val hi, flagOf_flagByte]
  | onMark k =>
    obtain ⟨rfl, hk⟩ := h
    simp [condOf, indexOf_of_val hk]

theorem limitOf_in_range {l1 l0 : Byte} (h : (l1 ++ l0 : BitVec 16).toNat = 0 ∨
      (10 ≤ (l1 ++ l0 : BitVec 16).toNat ∧ (l1 ++ l0 : BitVec 16).toNat ≤ 60000)) :
    limitOf l1 l0 = some (l1 ++ l0 : BitVec 16).toNat := if_pos h

theorem markOf_markByte {mark : Option MarkIx} {mk : Byte} (h : MarkByte mark mk) : markOf mk = some mark := by
  cases mark with
  | none =>
    obtain rfl := h
    rfl
  | some k =>
    obtain rfl := h
    have hne : byteOf k.val ≠ absentByte := fun he => by
      have hk := byteOf_toNat k.val (by omega)
      simp [he, absentByte] at hk
      omega
    simp [markOf, hne, indexOf_byteOf 8 (by decide) k]

theorem takesMove_iff (t : MoveTarget) (a : Actuator) :
    a.takesMove t = true ↔ a.managed = true ∧ ¬ (t = .release ∧ a.cfg.kind = .single) := by
  simp [Actuator.takesMove, -not_and, not_and_or]

theorem moveBytes_length (ms : List Move) : (moveBytes ms).length = 2 * ms.length := by
  induction ms with
  | nil => rfl
  | cons mv rest ih =>
    simp only [moveBytes, List.flatMap_cons, List.length_append, List.length_cons, List.length_nil] at ih ⊢
    omega

/-- Moves that their actuators take are read back from their bytes. -/
theorem movesOf_moveBytes {m : Motion} {ms : List Move}
    (h : ∀ mv ∈ ms, (m.act mv.act).managed = true ∧ ¬ (mv.target = .release ∧ (m.act mv.act).cfg.kind = .single)) :
    movesOf m (moveBytes ms) = some ms := by
  induction ms with
  | nil => rfl
  | cons mv rest ih =>
    obtain ⟨hmv, hrest⟩ := List.forall_mem_cons.mp h
    have hbytes : moveBytes (mv :: rest) = byteOf mv.act.val :: targetByte mv.target :: moveBytes rest := rfl
    simp [hbytes, movesOf, indexOf_byteOf 16 (by decide) mv.act, moveTarget_ofCode_byte, ih hrest,
      (takesMove_iff ..).mpr hmv]

/-- The step of a posting, before its reached indicator is tested (R38). -/
def postedStep (tag : Tag) (cond : StartCond) (limit : Nat) (flags : Byte) (mark : Option MarkIx) (moves : List Move) :
    Machine.Step :=
  { tag := tag, cond := cond, startLimit := limit
    report := flags.getLsbD 0, recirculate := flags.getLsbD 1, cycleEnd := flags.getLsbD 2
    mark := mark, moves := moves, run := .held, results := [], startTime := none, firstFailed := none, reached := false }

theorem stepOf_in_range {m : Motion} {code a3 a2 a1 a0 l1 l0 flags mk : Byte} {cond : StartCond}
    {mark : Option MarkIx} {moves : List Move} (hcond : CondBytes cond code a3 a2 a1 a0) (hmark : MarkByte mark mk)
    (hflags : flags.toNat ≤ 7) (hmoves : MovesTaken m moves)
    (hlimit : (l1 ++ l0 : BitVec 16).toNat = 0 ∨
      (10 ≤ (l1 ++ l0 : BitVec 16).toNat ∧ (l1 ++ l0 : BitVec 16).toNat ≤ 60000)) (l : LaneIx) (t1 t0 : Byte) :
    stepOf m (byteOf l.val) t1 t0 code a3 a2 a1 a0 l1 l0 flags mk (byteOf moves.length) (moveBytes moves) =
      some (l, postedStep (t1 ++ t0) cond (l1 ++ l0 : BitVec 16).toNat flags mark moves) := by
  obtain ⟨hone, height, hdistinct, htaken⟩ := hmoves
  have hcount : (byteOf moves.length).toNat = moves.length := byteOf_toNat _ (by omega)
  have hflags' : ¬ 7 < flags.toNat := by omega
  have hcount' : ¬ ((byteOf moves.length).toNat = 0 ∨ 8 < (byteOf moves.length).toNat) := by omega
  simp only [stepOf, indexOf_byteOf 4 (by decide) l, condOf_condBytes hcond, limitOf_in_range hlimit,
    markOf_markByte hmark, movesOf_moveBytes htaken, (distinctActs_iff _).mpr hdistinct, hflags', hcount',
    Option.bind_eq_bind, Option.bind_some, if_false, Bool.not_true, Bool.false_eq_true]
  rfl

/-! ## The appending of a posted step (R38) -/

theorem post_behind {l : LaneIx} {e : Event} (hst : (e.m.lane l).state ≠ .empty) (h : Machine.Step) (v : Env) :
    e.post v l h =
      laneWritten l { e.m.lane l with steps := (e.m.lane l).steps ++ [reachedAt v.time h] } (e.m.poolFree - 1)
        e.m.queue e := by
  simp only [Event.post, beq_eq_false_iff_ne.mpr hst, testReached_eq]
  rfl

theorem post_alone {l : LaneIx} {e : Event} {h : Machine.Step} {v : Env} {ln : Lane}
    (hst : (e.m.lane l).state = .empty)
    (hln : ln = { e.m.lane l with steps := (e.m.lane l).steps ++ [reachedAt v.time h] }) :
    e.post v l h =
      laneWritten l (evaluatedIn v.mode ln) (e.m.poolFree - 1) (e.m.queue ++ entryOf v.mode l ln) e := by
  have hpost : e.post v l h = (laneWritten l ln (e.m.poolFree - 1) e.m.queue e).evaluate v l := by
    simp only [Event.post, hst, testReached_eq, hln]
    rfl
  have hsteps : ln.steps ≠ [] := by simp [hln]
  rw [hpost, evaluate_laneWritten _ _ _ _ _ _ hsteps]

/-- A posting that spells a step passes the two checks of room in their order (R37). -/
theorem reqStepPost_of_stepOf {l t1 t0 code a3 a2 a1 a0 l1 l0 flags mk count : Byte} {moves : List Byte} {s : State}
    {lane : LaneIx} {h : Machine.Step} (hlen : moves.length = 2 * count.toNat)
    (hstep : stepOf s.motion l t1 t0 code a3 a2 a1 a0 l1 l0 flags mk count moves = some (lane, h)) :
    reqStepPost (l :: t1 :: t0 :: code :: a3 :: a2 :: a1 :: a0 :: l1 :: l0 :: flags :: mk :: count :: moves) s =
      if 32 ≤ (s.motion.lane lane).steps.length then refuse .laneFull s
      else if s.motion.poolFree = 0 then refuse .poolFull s
      else okWith { s := s, e := s.event.post s.env lane h } ((s.event.post s.env lane h).m.countBytes lane) := by
  simp only [reqStepPost, hlen, ne_eq, not_true_eq_false, if_false, hstep]
  rfl

/-! ## A posting out of range (R37) -/

/-- No field of a posting is out of its range. -/
structure PostInRange (m : Motion) (l code a3 a2 a1 a0 l1 l0 flags mk count : Byte) (moves : List Byte) : Prop where
  laneFits : ¬ 3 < l.toNat
  codeFits : ¬ 4 < code.toNat
  delayFits : ¬ (code = 1 ∧ 600000 < (a3 ++ a2 ++ a1 ++ a0 : BitVec 32).toNat)
  inputFits : ¬ (code = 3 ∧ (31 < a3.toNat ∨ 1 < a2.toNat))
  markFits : ¬ (code = 4 ∧ 7 < a3.toNat)
  limitLow : ¬ (1 ≤ (l1 ++ l0 : BitVec 16).toNat ∧ (l1 ++ l0 : BitVec 16).toNat ≤ 9)
  limitHigh : ¬ 60000 < (l1 ++ l0 : BitVec 16).toNat
  flagsFit : ¬ 7 < flags.toNat
  completionFits : ¬ (7 < mk.toNat ∧ mk ≠ 0xFF)
  countLow : ¬ count = 0
  countHigh : ¬ 8 < count.toNat
  movesFit : ¬ ∃ g ∈ pairs moves, 15 < g.1.toNat ∨ 2 < g.2.toNat
  movesDistinct : ((pairs moves).map (·.1)).Nodup
  movesTaken : ¬ ∃ g ∈ pairs moves, ∃ a : ActIx, a.val = g.1.toNat ∧
    ((m.act a).managed = false ∨ ((m.act a).cfg.kind = .single ∧ g.2 = 2))

theorem le_of_indexOf_some {n : Nat} {b : Byte} {i : Fin n} (h : indexOf n b = some i) : b.toNat < n := by
  by_contra hge
  simp [indexOf_none n b (by omega)] at h

theorem condOf_some {code a3 a2 a1 a0 : Byte} {cond : StartCond} (h : condOf code a3 a2 a1 a0 = some cond) :
    ¬ 4 < code.toNat ∧ ¬ (code = 1 ∧ 600000 < (a3 ++ a2 ++ a1 ++ a0 : BitVec 32).toNat) ∧
      ¬ (code = 3 ∧ (31 < a3.toNat ∨ 1 < a2.toNat)) ∧ ¬ (code = 4 ∧ 7 < a3.toNat) := by
  refine ⟨fun hcode => ?_, ?_, ?_, ?_⟩
  · unfold condOf at h
    split at h <;> first | omega | cases h
  · rintro ⟨rfl, hd⟩
    have hnone : condOf 1 a3 a2 a1 a0 = none := if_neg (Nat.not_le.mpr hd)
    cases hnone.symm.trans h
  · rintro ⟨rfl, hi | hlevel⟩
    · simp [condOf, indexOf_none 32 a3 hi] at h
    · simp [condOf, flagOf_none a2 hlevel] at h
  · rintro ⟨rfl, hk⟩
    simp [condOf, indexOf_none 8 a3 hk] at h

theorem limitOf_some {l1 l0 : Byte} {n : Nat} (h : limitOf l1 l0 = some n) :
    (l1 ++ l0 : BitVec 16).toNat = 0 ∨
      (10 ≤ (l1 ++ l0 : BitVec 16).toNat ∧ (l1 ++ l0 : BitVec 16).toNat ≤ 60000) :=
  (Option.ite_none_right_eq_some.mp h).1

theorem markOf_some {mk : Byte} {mark : Option MarkIx} (h : markOf mk = some mark) :
    ¬ (7 < mk.toNat ∧ mk ≠ 0xFF) := by
  rintro ⟨hmk, hne⟩
  have hne' : mk ≠ absentByte := hne
  simp [markOf, hne', indexOf_none 8 mk hmk] at h

/-- What moves that are accepted were spelt by: bytes in range, each for an actuator that takes its move. -/
theorem movesOf_some {m : Motion} {bs : List Byte} : ∀ {ms : List Move}, movesOf m bs = some ms →
    (∀ g ∈ pairs bs, (g.1.toNat ≤ 15 ∧ g.2.toNat ≤ 2) ∧ ∀ a : ActIx, a.val = g.1.toNat →
      (m.act a).managed = true ∧ ¬ ((m.act a).cfg.kind = .single ∧ g.2 = 2)) ∧
      (pairs bs).map (·.1) = (ms.map (·.act)).map fun b => byteOf b.val := by
  induction bs using pairs.induct with
  | case1 b t rest ih =>
    intro ms h
    simp only [movesOf, Option.bind_eq_bind, Option.bind_eq_some_iff] at h
    obtain ⟨act, hact, target, htarget, more, hmore, h⟩ := h
    obtain ⟨htakes, h⟩ := Option.ite_none_right_eq_some.mp h
    obtain rfl := Option.some.inj h
    obtain ⟨hrange, hmap⟩ := ih hmore
    obtain ⟨hmanaged, hrelease⟩ := (takesMove_iff ..).mp htakes
    have hb := byteOf_of_indexOf hact
    have hindex : b.toNat < 16 := le_of_indexOf_some hact
    have hcode : t.toNat ≤ 2 := by
      by_contra hgt
      simp [moveTarget_ofCode_none t (by omega)] at htarget
    refine ⟨fun g hg => ?_, by simp [pairs, hmap, hb]⟩
    obtain rfl | hg := List.mem_cons.mp hg
    · refine ⟨⟨Nat.le_of_lt_succ hindex, hcode⟩, fun a ha => ?_⟩
      obtain rfl : a = act := Option.some.inj ((indexOf_of_val ha).symm.trans hact)
      refine ⟨hmanaged, fun ⟨hsingle, ht⟩ => hrelease ⟨?_, hsingle⟩⟩
      obtain rfl : t = 2 := ht
      exact (Option.some.inj htarget).symm
    · exact hrange g hg
  | case2 bs hbs =>
    intro ms h
    match bs with
    | [] => obtain rfl := Option.some.inj h; simp [pairs]
    | [_] => cases h
    | b :: p :: rest => exact absurd rfl (hbs b p rest)

theorem stepOf_some {m : Motion} {l t1 t0 code a3 a2 a1 a0 l1 l0 flags mk count : Byte} {moves : List Byte}
    {r : LaneIx × Machine.Step}
    (h : stepOf m l t1 t0 code a3 a2 a1 a0 l1 l0 flags mk count moves = some r) :
    PostInRange m l code a3 a2 a1 a0 l1 l0 flags mk count moves := by
  simp only [stepOf, Option.bind_eq_bind, Option.bind_eq_some_iff] at h
  obtain ⟨lane, hlane, cond, hcond, limit, hlimit, mark, hmark, mvs, hmvs, h⟩ := h
  obtain ⟨hflags, h⟩ := Option.ite_none_left_eq_some.mp h
  obtain ⟨hcount, h⟩ := Option.ite_none_left_eq_some.mp h
  obtain ⟨hdistinct, _⟩ := Option.ite_none_left_eq_some.mp h
  obtain ⟨hcode, hdelay, hinput, hawaited⟩ := condOf_some hcond
  have hlimit := limitOf_some hlimit
  have hlane := le_of_indexOf_some hlane
  obtain ⟨hmoves, hacts⟩ := movesOf_some hmvs
  refine { laneFits := by omega, codeFits := hcode, delayFits := hdelay, inputFits := hinput, markFits := hawaited,
           limitLow := by omega, limitHigh := by omega, flagsFit := hflags, completionFits := markOf_some hmark,
           countLow := ?_, countHigh := by omega, movesFit := ?_, movesDistinct := ?_, movesTaken := ?_ }
  · rintro rfl
    simp at hcount
  · rintro ⟨g, hg, hout⟩
    obtain ⟨hrange, _⟩ := hmoves g hg
    omega
  · rw [hacts]
    exact ((distinctActs_iff _).mp (by simpa using hdistinct)).map byteOf_act_injective
  · rintro ⟨g, hg, a, ha, hout⟩
    obtain ⟨hmanaged, hrelease⟩ := (hmoves g hg).2 a ha
    obtain hfree | hsingle := hout
    · simp [hmanaged] at hfree
    · exact hrelease hsingle

theorem reqStepPost_of_stepOf_none {l t1 t0 code a3 a2 a1 a0 l1 l0 flags mk count : Byte} {moves : List Byte}
    {s : State} (hlen : moves.length = 2 * count.toNat)
    (h : stepOf s.motion l t1 t0 code a3 a2 a1 a0 l1 l0 flags mk count moves = none) :
    reqStepPost (l :: t1 :: t0 :: code :: a3 :: a2 :: a1 :: a0 :: l1 :: l0 :: flags :: mk :: count :: moves) s =
      refuse .badArg s := by
  simp [reqStepPost, hlen, h]

/-- Settles O46: a payload in range spells its step, which then needs room in its lane and in the pool; one out of range
spells none. -/
theorem stepPostAppendsOrRefuses : Obligations.StepPostAppendsOrRefuses := by
  refine ⟨?_, ?_⟩
  · intro s seq l t1 t0 code a3 a2 a1 a0 l1 l0 flags mk cond mark moves ht hcond hmark hflags hmoves hlimit payload
      hpayload
    have hlen : (moveBytes moves).length = 2 * (byteOf moves.length).toNat := by
      rw [moveBytes_length, byteOf_toNat _ (by have := hmoves.2.1; omega)]
    have hreq := reqStepPost_of_stepOf (s := received s) hlen
      (stepOf_in_range hcond hmark hflags hmoves hlimit l t1 t0)
    rw [← hpayload] at hreq
    refine ⟨fun hfull => ?_, fun hroom hpool => ?_, fun hroom hpool h hh ln hln u hu => ?_⟩
    · exact Refuses.of_refuse .laneFull (by decide) ht (exec_stepPost ..) (hreq.trans (if_pos hfull))
    · exact Refuses.of_refuse .poolFull (by decide) ht (exec_stepPost ..)
        (hreq.trans ((if_neg (Nat.not_le.mpr hroom)).trans (if_pos hpool)))
    · replace hreq := hreq.trans ((if_neg (Nat.not_le.mpr hroom)).trans (if_neg hpool))
      have hlength : ln.steps.length = (s.motion.lane l).steps.length + 1 := by simp [hln]
      subst hu
      rw [← hlength]
      rw [hh] at hln
      refine ⟨fun hst => ?_, fun hst _ => ?_⟩
      · rw [post_behind (e := (received s).event) hst, countBytes_laneWritten] at hreq
        subst hln
        exact yields_of_event ht (exec_stepPost ..) hreq rfl
      · rw [post_alone (e := (received s).event) hst hln, countBytes_laneWritten, evaluatedIn_length] at hreq
        exact yields_of_event ht (exec_stepPost ..) hreq rfl
  · intro s seq l t1 t0 code a3 a2 a1 a0 l1 l0 flags mk count moves ht hlen hout
    refine Refuses.of_refuse .badArg (by decide) ht (exec_stepPost ..) (reqStepPost_of_stepOf_none hlen ?_)
    refine Option.eq_none_iff_forall_ne_some.mpr fun r hr => ?_
    have hin : PostInRange s.motion l code a3 a2 a1 a0 l1 l0 flags mk count moves := stepOf_some hr
    simp only [hin.laneFits, hin.codeFits, hin.delayFits, hin.inputFits, hin.markFits, hin.limitLow, hin.limitHigh, hin.flagsFit,
      hin.completionFits, hin.countLow, hin.countHigh, hin.movesFit, hin.movesDistinct, hin.movesTaken, not_true_eq_false,
      or_self] at hout

end Sys2Proof.Proofs.LaneRequests
end

section
/-! PROOFS of the family 04, notices and the service stack: how a raised notice is taken (R92 to R97), CLAIM (R99, R104),
CLOSE (R105, R106) and DISMISS (R107). -/

namespace Sys2Proof.Proofs.Notices

open Sys2Proof.Machine Sys2Proof.Safety

/-! ## The successor of an id (R95) -/

/-- The ids 1 to 65,535 form one cycle, on which an id's place is its value less one. -/
theorem toNat_iterate_idAfter {i : NoticeId} (h : i ≠ 0) (k : Nat) :
    (idAfter^[k] i).toNat = (i.toNat - 1 + k) % 65535 + 1 := by
  induction k with
  | zero =>
    rw [Function.iterate_zero_apply]
    bv_omega
  | succ k ih =>
    rw [Function.iterate_succ_apply']
    generalize idAfter^[k] i = j at ih ⊢
    unfold idAfter
    split <;> bv_omega

theorem iterate_idAfter_ne_zero {i : NoticeId} (h : i ≠ 0) (k : Nat) : idAfter^[k] i ≠ 0 := by
  have hk := toNat_iterate_idAfter h k
  bv_omega

/-- The first 65,535 ids from an id on are distinct. -/
theorem iterate_idAfter_injOn {i : NoticeId} (h : i ≠ 0) :
    Set.InjOn (fun k => idAfter^[k] i) (Set.Iio 65535) := by
  intro j hj k hk hjk
  have hnat : (idAfter^[j] i).toNat = (idAfter^[k] i).toNat := congrArg BitVec.toNat hjk
  rw [toNat_iterate_idAfter h, toNat_iterate_idAfter h] at hnat
  simp only [Set.mem_Iio] at hj hk
  omega

/-- Of one more id than a list is long, counted from an id on, one is not in the list. -/
theorem exists_iterate_idAfter_notMem {i : NoticeId} (h : i ≠ 0) {used : List NoticeId} (hlen : used.length < 65535) :
    ∃ k ≤ used.length, idAfter^[k] i ∉ used := by
  by_contra! hall
  have hdistinct : Set.InjOn (fun k => idAfter^[k] i) (Finset.range (used.length + 1)) :=
    (iterate_idAfter_injOn h).mono fun k hk => by
      simp only [Finset.coe_range, Set.mem_Iio] at hk ⊢
      omega
  have hheld : ∀ k ∈ Finset.range (used.length + 1), idAfter^[k] i ∈ used.toFinset := fun k hk =>
    List.mem_toFinset.mpr (hall k (Finset.mem_range_succ_iff.mp hk))
  have hcard := calc
    used.length + 1 = (Finset.range (used.length + 1)).card := (Finset.card_range _).symm
    _ ≤ used.toFinset.card := Finset.card_le_card_of_injOn _ hheld hdistinct
    _ ≤ used.length := used.toFinset_card_le
  omega

/-! ## The id of a new record (R95) -/

/-- The search for an id passes over ids in use, and stops at one that is free where its fuel reaches one. -/
theorem freshId_first {used : List NoticeId} : ∀ {fuel k : Nat} {i : NoticeId}, k < fuel → idAfter^[k] i ∉ used →
    ∃ m, freshId used fuel i = idAfter^[m] i ∧ (∀ j, j < m → idAfter^[j] i ∈ used) ∧ idAfter^[m] i ∉ used
  | 0, _, _, hk, _ => absurd hk (Nat.not_lt_zero _)
  | fuel + 1, k, i, hk, hfree => by
    by_cases hi : i ∈ used
    · obtain ⟨k, rfl⟩ : ∃ n, k = n + 1 := Nat.exists_eq_succ_of_ne_zero (by rintro rfl; exact hfree hi)
      obtain ⟨m, hm, hbefore, hat⟩ := freshId_first (i := idAfter i) (Nat.lt_of_succ_lt_succ hk) hfree
      refine ⟨m + 1, by simpa [freshId, hi] using hm, fun j hj => ?_, hat⟩
      cases j with
      | zero => exact hi
      | succ j => exact hbefore j (by omega)
    · exact ⟨0, by simp [freshId, hi], fun j hj => absurd hj (Nat.not_lt_zero j), hi⟩

/-- A new record takes the first id from the counter on that is not in use. -/
theorem newId_first {u : NoticeUnit} (hnext : u.nextId ≠ 0) (hlen : u.idsInUse.length < 65535) :
    ∃ k, u.newId = idAfter^[k] u.nextId ∧ (∀ j, j < k → idAfter^[j] u.nextId ∈ u.idsInUse) ∧
      idAfter^[k] u.nextId ∉ u.idsInUse := by
  obtain ⟨k, hk, hfree⟩ := exists_iterate_idAfter_notMem hnext hlen
  exact freshId_first (Nat.lt_succ_of_le hk) hfree

theorem idsInUse_length (u : NoticeUnit) : u.idsInUse.length = u.waiting.length + u.stack.length := by
  simp [NoticeUnit.idsInUse]

/-! ## Places in the pending list (R97) and merging (R93) -/

/-- A record is placed behind every record as urgent as it, in front of the first that is less urgent. -/
theorem placeNotice_splits (r : Notice) (l : List Notice) :
    ∃ pre post, l = pre ++ post ∧ placeNotice r l = pre ++ r :: post ∧ (∀ q ∈ pre, q.priority ≤ r.priority) ∧
      ∀ q rest, post = q :: rest → r.priority < q.priority := by
  induction l with
  | nil => exact ⟨[], [], rfl, rfl, by simp, by simp⟩
  | cons q rest ih =>
    by_cases h : r.priority < q.priority
    · refine ⟨[], q :: rest, rfl, by simp [placeNotice, h], by simp, fun _ _ he => ?_⟩
      cases he
      exact h
    · obtain ⟨pre, post, rfl, hplace, hpre, hpost⟩ := ih
      exact ⟨q :: pre, post, rfl, by simp [placeNotice, h, hplace],
        List.forall_mem_cons.mpr ⟨not_lt.mp h, hpre⟩, hpost⟩

theorem matchesRaised_iff (r : Notice) (n : Raised) : r.matchesRaised n = true ↔ r.cls = n.cls ∧ r.source = n.source := by
  simp [Notice.matchesRaised]

theorem any_matchesRaised_eq_false {l : List Notice} {n : Raised} (h : ∀ q ∈ l, ¬ (q.cls = n.cls ∧ q.source = n.source)) :
    l.any (·.matchesRaised n) = false :=
  List.any_eq_false.mpr fun q hq => (matchesRaised_iff q n).not.mpr (h q hq)

/-- Records that a notice does not match are left as they are. -/
theorem map_merge_eq_self {l : List Notice} {n : Raised} (now : Time)
    (h : ∀ q ∈ l, ¬ (q.cls = n.cls ∧ q.source = n.source)) :
    (l.map fun r => if r.matchesRaised n then r.merge now n else r) = l :=
  (List.map_congr_left fun q hq => if_neg ((matchesRaised_iff q n).not.mpr (h q hq))).trans l.map_id'

/-! ## The four outcomes of a notice (R92) -/

section
variable {now : Time} {u : NoticeUnit} {n : Raised}

theorem take_disabled (h : (u.classes.get n.cls.index).enabled = false) : u.take now n = u := by
  simp [NoticeUnit.take, h]

theorem take_merged {pre post : List Notice} {r : Notice} (h : (u.classes.get n.cls.index).enabled = true)
    (hw : u.waiting = pre ++ r :: post) (hr : r.cls = n.cls ∧ r.source = n.source)
    (hother : ∀ q ∈ pre ++ post, ¬ (q.cls = n.cls ∧ q.source = n.source)) :
    u.take now n = { u with waiting := pre ++ r.merge now n :: post } := by
  obtain ⟨hpre, hpost⟩ := List.forall_mem_append.mp hother
  have hmatch := (matchesRaised_iff r n).mpr hr
  simp [NoticeUnit.take, h, hw, hmatch, map_merge_eq_self now hpre, map_merge_eq_self now hpost]

theorem take_lost (h : (u.classes.get n.cls.index).enabled = true)
    (hnone : ∀ q ∈ u.waiting, ¬ (q.cls = n.cls ∧ q.source = n.source)) (hfull : 32 ≤ u.waiting.length) :
    u.take now n = { u with lost := satInc u.lost } := by
  simp [NoticeUnit.take, h, any_matchesRaised_eq_false hnone, Config.pendingSize, hfull]

theorem take_created (h : (u.classes.get n.cls.index).enabled = true)
    (hnone : ∀ q ∈ u.waiting, ¬ (q.cls = n.cls ∧ q.source = n.source)) (hroom : u.waiting.length < 32) :
    u.take now n =
      { u with waiting := placeNotice (u.recordOf now n) u.waiting, nextId := idAfter u.newId } := by
  simp [NoticeUnit.take, h, any_matchesRaised_eq_false hnone, Config.pendingSize, Nat.not_le.mpr hroom]

end

/-- Settles O50, outcome by outcome of R92. -/
theorem aNoticeIsDiscardedMergedLostOrCreated : Obligations.ANoticeIsDiscardedMergedLostOrCreated := by
  rintro now u n entry rfl
  refine ⟨take_disabled, fun pre r post he hw hcls hsource hother => ?_, take_lost, fun he hnone hroom hstack hnext => ?_⟩
  · exact take_merged he hw ⟨hcls, hsource⟩ hother
  · have hlen := idsInUse_length u
    obtain ⟨k, hid, hused, hfree⟩ := newId_first hnext (by omega)
    obtain ⟨pre, post, hw, hplace, hpre, hpost⟩ := placeNotice_splits (u.recordOf now n) u.waiting
    refine ⟨pre, post, k, u.newId, hw, hid, hused, hid ▸ hfree, hid ▸ iterate_idAfter_ne_zero hnext k, hpre, hpost, ?_⟩
    rw [take_created he hnone hroom, hplace]
    rfl

/-! ## Records found by eligibility and by id (R99, R104 to R107) -/

theorem eligible_iff (u : NoticeUnit) (r : Notice) : u.eligible r = true ↔ Eligible u r := by
  unfold NoticeUnit.eligible Eligible
  cases u.stack <;> simp

theorem next?_eq_none {u : NoticeUnit} (h : ∀ r ∈ u.waiting, ¬ Eligible u r) : u.next? = none :=
  List.find?_eq_none.mpr fun r hr => (eligible_iff u r).not.mpr (h r hr)

theorem next?_eq_some {u : NoticeUnit} {pre post : List Notice} {r : Notice} (hw : u.waiting = pre ++ r :: post)
    (hr : Eligible u r) (hpre : ∀ q ∈ pre, ¬ Eligible u q) : u.next? = some r :=
  List.find?_eq_some_iff_append.mpr
    ⟨(eligible_iff u r).mpr hr, pre, post, hw, fun q hq => by simpa [← eligible_iff] using hpre q hq⟩

theorem hasId_eq_false {id : NoticeId} {l : List Notice} (h : ∀ r ∈ l, r.id ≠ id) : hasId id l = false := by
  simpa [hasId] using h

theorem hasId_append_cons (pre post : List Notice) (r : Notice) : hasId r.id (pre ++ r :: post) = true := by
  simp [hasId]

/-- Where ids are distinct, the record of an id is the one removed. -/
theorem dropId_append_cons {pre post : List Notice} {r : Notice} (h : ((pre ++ r :: post).map (·.id)).Nodup) :
    dropId r.id (pre ++ r :: post) = pre ++ post := by
  induction pre with
  | nil => simp [dropId]
  | cons q rest ih =>
    obtain ⟨hq, hrest⟩ := List.nodup_cons.mp h
    have hne : q.id ≠ r.id := fun he => hq (by simp [he])
    simp [dropId, hne, ih hrest]

/-! ## The law of the ids -/

section
variable {u : NoticeUnit} (h : IdLaw u)
include h

theorem waiting_ids_nodup : (u.waiting.map (·.id)).Nodup := (List.nodup_append.mp h.1).1

theorem stack_ids_nodup : (u.stack.map (·.id)).Nodup := (List.nodup_append.mp h.1).2.1

theorem waiting_id_ne_zero {r : Notice} (hr : r ∈ u.waiting) : r.id ≠ 0 := fun he =>
  h.2.1 (List.mem_append_left _ (he ▸ List.mem_map_of_mem hr))

theorem stack_id_ne_zero {r : Notice} (hr : r ∈ u.stack) : r.id ≠ 0 := fun he =>
  h.2.1 (List.mem_append_right _ (he ▸ List.mem_map_of_mem hr))

end

/-! ## The meaning of the three commands -/

theorem exec_claim (seq : Byte) (payload : List Byte) (s : State) :
    exec (.claim seq payload) s = .next (s.goodFrame seq 0x33 reqClaim payload) := rfl

theorem exec_close (seq : Byte) (payload : List Byte) (s : State) :
    exec (.close seq payload) s = .next (s.goodFrame seq 0x34 reqClose payload) := rfl

theorem exec_dismiss (seq : Byte) (payload : List Byte) (s : State) :
    exec (.dismiss seq payload) s = .next (s.goodFrame seq 0x35 reqDismiss payload) := rfl

/-- A request answered OK that works on the notice unit alone. -/
theorem yields_of_notices {c : Instr} {s : State} {seq kind : Byte} {req : Request} {payload content : List Byte}
    {u : NoticeUnit} (ht : Takes s seq) (hx : exec c s = .next (s.goodFrame seq kind req payload))
    (hq : req payload (received s) = okNotices u content (received s)) :
    Yields c s { answering s seq kind .ok content with notices := u } [] :=
  Yields.of_ok _ content ht hx hq rfl rfl rfl

/-! ## CLAIM (R104) -/

theorem reqClaim_of_none {s : State} (h : s.notices.next? = none) :
    reqClaim [] s = refuseWith .empty [byteOf s.notices.waiting.length] s := by
  simp [reqClaim, noPayload, h]

theorem reqClaim_of_full {s : State} {r : Notice} (h : s.notices.next? = some r) (hfull : 8 ≤ s.notices.stack.length) :
    reqClaim [] s =
      refuseWith .stackFull [byteOf s.notices.waiting.length, byteOf s.notices.stack.length] s := by
  simp [reqClaim, noPayload, h, Config.stackSize, hfull]

theorem reqClaim_of_room {s : State} {r : Notice} {w : List Notice} (h : s.notices.next? = some r)
    (hw : dropId r.id s.notices.waiting = w) (hroom : s.notices.stack.length < 8) :
    reqClaim [] s =
      okNotices { s.notices with waiting := w, stack := r :: s.notices.stack }
        (byteOf w.length :: byteOf (s.notices.stack.length + 1) :: r.bytes (s.notices.stack.length + 1)) s := by
  simp [reqClaim, noPayload, h, Config.stackSize, Nat.not_le.mpr hroom, NoticeUnit.claim, hw]

/-- Settles O53, case by case of R104. -/
theorem claimTakesTheFirstEligibleRecord : Obligations.ClaimTakesTheFirstEligibleRecord := by
  intro s seq ht hlaw
  refine ⟨fun hnone => ?_, fun pre r post hw hr hpre => ⟨fun hfull => ?_, fun hroom => ?_⟩⟩
  · exact Refuses.of_refuseWith .empty _ (by decide) ht (exec_claim ..) (reqClaim_of_none (next?_eq_none hnone))
  · exact Refuses.of_refuseWith .stackFull _ (by decide) ht (exec_claim ..)
      (reqClaim_of_full (next?_eq_some hw hr hpre) hfull)
  · have hdrop : dropId r.id s.notices.waiting = pre ++ post :=
      hw ▸ dropId_append_cons (hw ▸ waiting_ids_nodup hlaw)
    exact yields_of_notices ht (exec_claim ..) (reqClaim_of_room (next?_eq_some hw hr hpre) hdrop hroom)

/-! ## CLOSE (R105, R106) -/

theorem topId_eq (u : NoticeUnit) : u.topId = (u.stack.head?.map (·.id)).getD 0 := by
  unfold NoticeUnit.topId
  cases u.stack <;> rfl

section
variable {s : State} {hi lo : Byte}

theorem reqClose_top_of_empty (hid : (hi ++ lo : NoticeId) = 0) (h : s.notices.stack = []) :
    reqClose [hi, lo] s = refuse .empty s := by
  simp [reqClose, word16_eq, hid, h]

theorem reqClose_top {r : Notice} {rest : List Notice} (hid : (hi ++ lo : NoticeId) = 0)
    (h : s.notices.stack = r :: rest) :
    reqClose [hi, lo] s = okNotices { s.notices with stack := rest }
      (byteOf rest.length :: bytes16 ((rest.head?.map (·.id)).getD 0)) s := by
  simp [reqClose, word16_eq, hid, h, NoticeUnit.closeBytes, topId_eq]

theorem reqClose_found {l : List Notice} (hid : (hi ++ lo : NoticeId) ≠ 0)
    (h : hasId (hi ++ lo) s.notices.stack = true) (hl : dropId (hi ++ lo) s.notices.stack = l) :
    reqClose [hi, lo] s = okNotices { s.notices with stack := l }
      (byteOf l.length :: bytes16 ((l.head?.map (·.id)).getD 0)) s := by
  simp only [reqClose, word16_eq, if_neg hid, if_pos h, hl, NoticeUnit.closeBytes, topId_eq]

theorem reqClose_not_found (hid : (hi ++ lo : NoticeId) ≠ 0) (h : hasId (hi ++ lo) s.notices.stack = false) :
    reqClose [hi, lo] s = refuse .notFound s := by
  simp only [reqClose, word16_eq, if_neg hid, h, Bool.false_eq_true, if_false]

/-! ## DISMISS (R107) -/

theorem reqDismiss_found {l : List Notice} (hid : (hi ++ lo : NoticeId) ≠ 0)
    (h : hasId (hi ++ lo) s.notices.waiting = true) (hl : dropId (hi ++ lo) s.notices.waiting = l) :
    reqDismiss [hi, lo] s = okNotices { s.notices with waiting := l } [byteOf l.length] s := by
  simp only [reqDismiss, word16_eq, if_pos (And.intro hid h), hl]

theorem reqDismiss_not_found (h : hasId (hi ++ lo) s.notices.waiting = false) :
    reqDismiss [hi, lo] s = refuse .notFound s := by
  simp [reqDismiss, word16_eq, h]

end

/-- Settles O54: CLOSE by the id and what the stack holds of it, DISMISS by what the pending list holds of it. -/
theorem closeAndDismissRemoveTheirRecord : Obligations.CloseAndDismissRemoveTheirRecord := by
  rintro s seq hi lo ht hlaw _ rfl
  refine ⟨fun hid hempty => ?_, fun pre r post hs hr => ?_, fun hid hnone => ?_, fun pre r post hw hr => ?_,
    fun hnone => ?_⟩
  · exact Refuses.of_refuse .empty (by decide) ht (exec_close ..) (reqClose_top_of_empty hid hempty)
  · obtain ⟨hid, rfl⟩ | hr := hr
    · exact yields_of_notices ht (exec_close ..) (reqClose_top hid hs)
    · have hid := hr ▸ stack_id_ne_zero hlaw (r := r) (by simp [hs])
      have hfound : hasId (hi ++ lo) s.notices.stack = true := hs ▸ hr ▸ hasId_append_cons pre post r
      have hdrop : dropId (hi ++ lo) s.notices.stack = pre ++ post :=
        hs ▸ hr ▸ dropId_append_cons (hs ▸ stack_ids_nodup hlaw)
      exact yields_of_notices ht (exec_close ..) (reqClose_found hid hfound hdrop)
  · exact Refuses.of_refuse .notFound (by decide) ht (exec_close ..) (reqClose_not_found hid (hasId_eq_false hnone))
  · have hid := hr ▸ waiting_id_ne_zero hlaw (r := r) (by simp [hw])
    have hfound : hasId (hi ++ lo) s.notices.waiting = true := hw ▸ hr ▸ hasId_append_cons pre post r
    have hdrop : dropId (hi ++ lo) s.notices.waiting = pre ++ post :=
      hw ▸ hr ▸ dropId_append_cons (hw ▸ waiting_ids_nodup hlaw)
    exact yields_of_notices ht (exec_dismiss ..) (reqDismiss_found hid hfound hdrop)
  · exact Refuses.of_refuse .notFound (by decide) ht (exec_dismiss ..) (reqDismiss_not_found (hasId_eq_false hnone))

end Sys2Proof.Proofs.Notices
end

section
/-! PROOFS of the family 05, lines, banks and inputs: LINES_SET (R112, R114), BANK_CLEAR (R119) and the actual level of a line
(R111, R113). -/

namespace Sys2Proof.Proofs.LinesAndBanks

open Sys2Proof.Machine Sys2Proof.Safety

/-! ## The meaning of the two commands -/

theorem exec_linesSet (seq : Byte) (payload : List Byte) (s : State) :
    exec (.linesSet seq payload) s = .next (s.goodFrame seq 0x1A reqLinesSet payload) := rfl

theorem exec_bankClear (seq : Byte) (payload : List Byte) (s : State) :
    exec (.bankClear seq payload) s = .next (s.goodFrame seq 0x1B reqBankClear payload) := rfl

/-! ## The lines of a mask (R112, R114) -/

/-- A line of the mask is managed: line 2n of a managed kind, line 2n+1 of a kind with two coils. -/
theorem masksManaged_iff (m : Motion) (mask : BitVec 32) :
    m.masksManaged mask = true ↔ ∃ a : ActIx,
      (mask.getLsbD (2 * a.val) = true ∧ (m.act a).cfg.kind.managed = true) ∨
        (mask.getLsbD (2 * a.val + 1) = true ∧ (m.act a).cfg.kind.double = true) := by
  simp [Motion.masksManaged, lineBit, Kind.managesA, Kind.managesB, mem_allActs]

theorem masksManaged_eq_false {m : Motion} {mask : BitVec 32}
    (h : ∀ a : ActIx, (mask.getLsbD (2 * a.val) = true → (m.act a).cfg.kind.managed = false) ∧
      (mask.getLsbD (2 * a.val + 1) = true → (m.act a).cfg.kind.double = false)) : m.masksManaged mask = false := by
  refine Bool.eq_false_iff.mpr fun hm => ?_
  obtain ⟨a, ⟨hbit, hkind⟩ | ⟨hbit, hkind⟩⟩ := (masksManaged_iff m mask).mp hm
  · exact Bool.false_ne_true (((h a).1 hbit).symm.trans hkind)
  · exact Bool.false_ne_true (((h a).2 hbit).symm.trans hkind)

/-- Every actuator's two lines are written, each where the mask holds it. -/
theorem act_writeLines (m : Motion) (mask values : BitVec 32) (a : ActIx) :
    (m.writeLines mask values).act a = { m.act a with
      lineA := if mask.getLsbD (2 * a.val) then values.getLsbD (2 * a.val) else (m.act a).lineA
      lineB := if mask.getLsbD (2 * a.val + 1) then values.getLsbD (2 * a.val + 1) else (m.act a).lineB } :=
  (foldActs_act (Actuator.writeLines mask values) allActs allActs_nodup a m).trans (if_pos (mem_allActs a))

theorem writeLines_frame (m : Motion) (mask values : BitVec 32) :
    (m.writeLines mask values).lanes = m.lanes ∧ (m.writeLines mask values).poolFree = m.poolFree ∧
      (m.writeLines mask values).queue = m.queue ∧ (m.writeLines mask values).marks = m.marks :=
  foldActs_frame (Actuator.writeLines mask values) allActs m

/-! ## LINES_SET (R114) -/

section
variable {s : State} {m3 m2 m1 m0 v3 v2 v1 v0 : Byte}

theorem reqLinesSet_managed (h : s.motion.masksManaged (m3 ++ m2 ++ m1 ++ m0) = true) :
    reqLinesSet [m3, m2, m1, m0, v3, v2, v1, v0] s = refuse .badArg s := if_pos h

theorem reqLinesSet_halted (h : s.motion.masksManaged (m3 ++ m2 ++ m1 ++ m0) = false) (hmode : s.modes.mode = .halted) :
    reqLinesSet [m3, m2, m1, m0, v3, v2, v1, v0] s = refuse .haltActive s := by
  simp [reqLinesSet, word32, h, hmode]

theorem reqLinesSet_direct {t : State} (h : s.motion.masksManaged (m3 ++ m2 ++ m1 ++ m0) = false)
    (hmode : s.modes.mode ≠ .halted)
    (ht : t = { s with motion := s.motion.writeLines (m3 ++ m2 ++ m1 ++ m0) (v3 ++ v2 ++ v1 ++ v0) }) :
    reqLinesSet [m3, m2, m1, m0, v3, v2, v1, v0] s = okWith t.body (levelBytes t.commanded) := by
  simp [reqLinesSet, word32, h, hmode, ht]

end

/-- Settles O43: the two refusals of LINES_SET, and its writing of the masked lines. -/
theorem linesSetWritesDirectLines : Obligations.LinesSetWritesDirectLines := by
  rintro s seq m3 m2 m1 m0 v3 v2 v1 v0 ht mask values rfl rfl
  refine ⟨fun hmanaged => ?_, fun hdirect => ?_⟩
  · exact Refuses.of_refuse .badArg (by decide) ht (exec_linesSet ..)
      (reqLinesSet_managed ((masksManaged_iff ..).mpr hmanaged))
  · have hfree := masksManaged_eq_false hdirect
    refine ⟨fun hmode => ?_, fun hmode => ?_⟩
    · exact Refuses.of_refuse .haltActive (by decide) ht (exec_linesSet ..) (reqLinesSet_halted hfree hmode)
    · obtain ⟨hlanes, hpool, hqueue, hmarks⟩ :=
        writeLines_frame s.motion (m3 ++ m2 ++ m1 ++ m0) (v3 ++ v2 ++ v1 ++ v0)
      exact ⟨_, Yields.of_ok _ _ ht (exec_linesSet ..) (reqLinesSet_direct hfree hmode rfl) rfl rfl rfl, rfl,
        act_writeLines s.motion _ _, hlanes, hqueue, hmarks, hpool⟩

/-! ## The latch of a bank (R111, R119) -/

theorem actualLevel_iff (s : State) (k : BankIx) (b : Bool) :
    s.actualLevel k b = true ↔ b = true ∧ s.latches.get k = false ∧ s.modes.inReset = none := by
  simp [State.actualLevel, and_assoc]

theorem mem_bankActs {k : BankIx} {a : ActIx} : a ∈ bankActs k ↔ bankOf a = k := by
  simp [bankActs, mem_allActs]

theorem bankActs_nodup (k : BankIx) : (bankActs k).Nodup := allActs_nodup.filter _

/-- A faulted actuator with a coil commanded on is a managed one: a kind without a first coil has no second. -/
theorem faultedOn_iff (x : Actuator) :
    x.faultedOn = true ↔ x.managed = true ∧ x.state = .faulted ∧
      (x.lineA = true ∨ (x.cfg.kind.double = true ∧ x.lineB = true)) := by
  unfold Actuator.faultedOn Actuator.managed Kind.managesA Kind.managesB
  cases x.cfg.kind <;> simp [Kind.managed, Kind.double]

/-- A faulted actuator of the bank has a coil commanded on (R119, check 3). -/
theorem any_faultedOn_iff (m : Motion) (k : BankIx) :
    ((bankActs k).any fun a => (m.act a).faultedOn) = true ↔
      ∃ a, bankOf a = k ∧ (m.act a).managed = true ∧ (m.act a).state = .faulted ∧
        ((m.act a).lineA = true ∨ ((m.act a).cfg.kind.double = true ∧ (m.act a).lineB = true)) := by
  simp only [List.any_eq_true, mem_bankActs, faultedOn_iff]

theorem any_faultedOn_eq_false {m : Motion} {k : BankIx}
    (h : ∀ a, bankOf a = k → (m.act a).managed = true → (m.act a).state = .faulted →
      (m.act a).lineA = false ∧ ((m.act a).cfg.kind.double = true → (m.act a).lineB = false)) :
    ((bankActs k).any fun a => (m.act a).faultedOn) = false := by
  refine Bool.eq_false_iff.mpr fun hany => ?_
  obtain ⟨a, hbank, hmanaged, hstate, hon⟩ := (any_faultedOn_iff m k).mp hany
  obtain ⟨hA, hB⟩ := h a hbank hmanaged hstate
  obtain hA' | ⟨hdouble, hB'⟩ := hon
  · exact Bool.false_ne_true (hA.symm.trans hA')
  · exact Bool.false_ne_true ((hB hdouble).symm.trans hB')

/-- What clearing the latch of its bank does to one actuator (R119). -/
def unlatched (x : Actuator) : Actuator := if x.managed && x.state == .rest then x.coilsOff else x

/-- A managed actuator in REST loses its coils. -/
theorem unlatched_rest {x : Actuator} (hm : x.managed = true) (hr : x.state = .rest) :
    unlatched x = { x with
      lineA := false, pulse := none, lineB := if x.cfg.kind.double then false else x.lineB } := by
  unfold unlatched
  rw [if_pos (by simp [hm, hr]), coilsOff_eq]
  unfold coilsUnder
  simp [hm, Bool.and_comm]

theorem unlatched_other {x : Actuator} (h : x.managed = false ∨ x.state ≠ .rest) : unlatched x = x := by
  refine if_neg fun hx => ?_
  simp only [Bool.and_eq_true, beq_iff_eq] at hx
  simp [hx] at h

theorem clearLatch_eq (k : BankIx) (s : State) :
    s.clearLatch k = { s with
      motion := (bankActs k).foldl (fun m a => m.setAct a (unlatched (m.act a))) s.motion
      latches := setVec s.latches k false } := by
  have hoff : ∀ (m : Motion) (a : ActIx),
      (if (m.act a).managed && (m.act a).state == .rest then m.setAct a (m.act a).coilsOff else m) =
        m.setAct a (unlatched (m.act a)) := fun m a => by
    unfold unlatched
    split <;> simp
  simp only [State.clearLatch, hoff]

theorem act_clearLatch (k : BankIx) (s : State) (a : ActIx) :
    (s.clearLatch k).motion.act a = if bankOf a = k then unlatched (s.motion.act a) else s.motion.act a := by
  rw [clearLatch_eq, foldActs_act (fun _ => unlatched) _ (bankActs_nodup k)]
  simp only [mem_bankActs]

theorem clearLatch_frame (k : BankIx) (s : State) :
    (s.clearLatch k).motion.lanes = s.motion.lanes ∧ (s.clearLatch k).motion.poolFree = s.motion.poolFree ∧
      (s.clearLatch k).motion.queue = s.motion.queue ∧ (s.clearLatch k).motion.marks = s.motion.marks := by
  rw [clearLatch_eq]
  exact foldActs_frame (fun _ => unlatched) (bankActs k) s.motion

/-! ## BANK_CLEAR (R119) -/

section
variable {s : State} {k : BankIx}

theorem reqBankClear_out_of_range (b : Byte) (h : 3 < b.toNat) : reqBankClear [b] s = refuse .badArg s := by
  simp [reqBankClear, indexOf_none 4 b h]

theorem reqBankClear_line_active (h : (s.drvflt.get k).active = true) :
    reqBankClear [byteOf k.val] s = refuse .wrongState s := by
  simp [reqBankClear, indexOf_byteOf 4 (by decide) k, h]

theorem reqBankClear_busy (h : (s.drvflt.get k).active = false) (hl : s.latches.get k = true)
    (hon : ((bankActs k).any fun a => (s.motion.act a).faultedOn) = true) :
    reqBankClear [byteOf k.val] s = refuse .busy s := by
  simp [reqBankClear, indexOf_byteOf 4 (by decide) k, h, hl, hon]

theorem reqBankClear_clear (h : (s.drvflt.get k).active = false) (hl : s.latches.get k = false) :
    reqBankClear [byteOf k.val] s = okWith s.body [levelByte s.latches.toList] := by
  simp [reqBankClear, indexOf_byteOf 4 (by decide) k, h, hl, State.latchByte]

theorem reqBankClear_latched (h : (s.drvflt.get k).active = false) (hl : s.latches.get k = true)
    (hon : ((bankActs k).any fun a => (s.motion.act a).faultedOn) = false) :
    reqBankClear [byteOf k.val] s =
      okWith (s.clearLatch k).body [levelByte (setVec s.latches k false).toList] := by
  have hcontent : (s.clearLatch k).latchByte = levelByte (setVec s.latches k false).toList := rfl
  simp [reqBankClear, indexOf_byteOf 4 (by decide) k, h, hl, hon, hcontent]

end

/-- Settles O44: what an actual level is, and each outcome of BANK_CLEAR. -/
theorem bankClearReleasesTheLatch : Obligations.BankClearReleasesTheLatch := by
  refine ⟨actualLevel_iff, fun s seq ht => ⟨fun b hb => ?_, fun k =>
    ⟨fun hline => ?_, fun hline hlatch hon => ?_, fun hline hlatch => ?_, fun hline hlatch hoff => ?_⟩⟩⟩
  · exact Refuses.of_refuse .badArg (by decide) ht (exec_bankClear ..) (reqBankClear_out_of_range b hb)
  · exact Refuses.of_refuse .wrongState (by decide) ht (exec_bankClear ..) (reqBankClear_line_active hline)
  · exact Refuses.of_refuse .busy (by decide) ht (exec_bankClear ..)
      (reqBankClear_busy hline hlatch ((any_faultedOn_iff ..).mpr hon))
  · exact Yields.of_ok _ _ ht (exec_bankClear ..) (reqBankClear_clear hline hlatch) rfl rfl rfl
  · obtain ⟨hlanes, hpool, hqueue, hmarks⟩ := clearLatch_frame k (received s)
    refine ⟨_, Yields.of_ok _ _ ht (exec_bankClear ..)
      (reqBankClear_latched hline hlatch (any_faultedOn_eq_false hoff)) rfl rfl rfl, rfl,
      fun a hbank hmanaged hrest => ?_, fun a hother => ?_, hlanes, hqueue, hmarks, hpool⟩
    · exact (act_clearLatch k (received s) a).trans ((if_pos hbank).trans (unlatched_rest hmanaged hrest))
    · refine (act_clearLatch k (received s) a).trans ?_
      obtain hbank | hother := hother
      · exact if_neg hbank
      · rw [unlatched_other (x := (received s).motion.act a) hother, ite_self]
        rfl

end Sys2Proof.Proofs.LinesAndBanks
end

section
/-! PROOFS of the family 06, machine time: SET_TIME (R131, R132). -/

namespace Sys2Proof.Proofs.MachineTime

open Sys2Proof.Machine Sys2Proof.Safety

/-! ## The meaning of the command -/

theorem exec_setTime (seq : Byte) (payload : List Byte) (s : State) :
    exec (.setTime seq payload) s = .next (s.goodFrame seq 0x06 reqSetTime payload) := rfl

/-! ## A machine time as four bytes (R176) -/

theorem bytes32_word32 (b3 b2 b1 b0 : Byte) : bytes32 (word32 b3 b2 b1 b0) = [b3, b2, b1, b0] := by
  have h3 : (b3 ++ b2 ++ b1 ++ b0).extractLsb' 24 8 = b3 := by
    rw [BitVec.extractLsb'_append_eq_of_le (by decide), BitVec.extractLsb'_append_eq_of_le (by decide),
      BitVec.extractLsb'_append_eq_left]
  have h2 : (b3 ++ b2 ++ b1 ++ b0).extractLsb' 16 8 = b2 := by
    rw [BitVec.extractLsb'_append_eq_of_le (by decide), BitVec.extractLsb'_append_eq_of_le (by decide),
      BitVec.extractLsb'_append_eq_right]
  have h1 : (b3 ++ b2 ++ b1 ++ b0).extractLsb' 8 8 = b1 := by
    rw [BitVec.extractLsb'_append_eq_of_le (by decide), BitVec.extractLsb'_append_eq_right]
  have h0 : (b3 ++ b2 ++ b1 ++ b0).extractLsb' 0 8 = b0 := BitVec.extractLsb'_append_eq_right
  rw [bytes32, word32, h3, h2, h1, h0]

/-! ## The clock set (R132) -/

/-- Every state entry time moves by what the count moves (R132, item 2). -/
theorem act_setClock (now : Time) (s : State) (a : ActIx) :
    (s.setClock now).motion.act a =
      { s.motion.act a with entryTime := (s.motion.act a).entryTime + (now - s.time) } := by
  simp only [State.setClock, Motion.testReached, Motion.shiftEntry, Motion.act, mapVec_get]

/-- Every held step is tested against the new count (R132, item 3). -/
theorem lane_setClock (now : Time) (s : State) (l : LaneIx) :
    (s.setClock now).motion.lane l =
      { s.motion.lane l with steps := (s.motion.lane l).steps.map (reachedAt now) } := by
  simp only [State.setClock, Motion.testReached, Motion.shiftEntry, Motion.lane, mapVec_get]
  rw [List.map_congr_left fun h _ => testReached_eq now h]

/-- Nothing else of the heart of the part changes: no step joins the start queue, no mark or entry is touched. -/
theorem setClock_frame (now : Time) (s : State) :
    (s.setClock now).motion.queue = s.motion.queue ∧ (s.setClock now).motion.marks = s.motion.marks ∧
      (s.setClock now).motion.poolFree = s.motion.poolFree := ⟨rfl, rfl, rfl⟩

/-! ## SET_TIME (R132) -/

section
variable {s : State} {b3 b2 b1 b0 : Byte}

theorem reqSetTime_wrong_mode (h : s.modes.mode ≠ .setup) : reqSetTime [b3, b2, b1, b0] s = refuse .wrongMode s := by
  simp [reqSetTime, h]

theorem reqSetTime_setup (h : s.modes.mode = .setup) :
    reqSetTime [b3, b2, b1, b0] s = okWith (s.setClock (b3 ++ b2 ++ b1 ++ b0)).body [b3, b2, b1, b0] :=
  (if_neg (by simp [h])).trans (congrArg (okWith (s.setClock (word32 b3 b2 b1 b0)).body) (bytes32_word32 ..))

end

/-- Settles O38: the refusal of SET_TIME outside SETUP, and what the accepted one changes and leaves. -/
theorem setTimeMovesTheClock : Obligations.SetTimeMovesTheClock := by
  refine fun s seq b3 b2 b1 b0 ht => ⟨fun hmode => ?_, ?_⟩
  · exact Refuses.of_refuse .wrongMode (by decide) ht (exec_setTime ..) (reqSetTime_wrong_mode hmode)
  · rintro hmode now rfl
    exact ⟨_, Yields.of_ok _ _ ht (exec_setTime ..) (reqSetTime_setup hmode) rfl rfl rfl, rfl,
      act_setClock _ (received s), lane_setClock _ (received s), setClock_frame _ (received s)⟩

end Sys2Proof.Proofs.MachineTime
end

section
/-! PROOFS of the family 07, operating modes, halt and restart: IDENT (R150), STATUS (R149), ENTER_RUN (R134, R135) and
ENTER_SETUP (R136, R137). -/

namespace Sys2Proof.Proofs.OperatingModes

open Sys2Proof.Machine Sys2Proof.Safety Sys2Proof.Proofs.LaneRequests

/-! ## The meaning of the four commands -/

theorem exec_ident (seq : Byte) (payload : List Byte) (s : State) :
    exec (.ident seq payload) s = .next (s.goodFrame seq 0x01 reqIdent payload) := rfl

theorem exec_status (seq : Byte) (payload : List Byte) (s : State) :
    exec (.status seq payload) s = .next (s.goodFrame seq 0x02 reqStatus payload) := rfl

theorem exec_enterSetup (seq : Byte) (payload : List Byte) (s : State) :
    exec (.enterSetup seq payload) s = .next (s.goodFrame seq 0x03 reqEnterSetup payload) := rfl

theorem exec_enterRun (seq : Byte) (payload : List Byte) (s : State) :
    exec (.enterRun seq payload) s = .next (s.goodFrame seq 0x04 reqEnterRun payload) := rfl

/-! ## IDENT (R150) -/

theorem reqIdent_eq (s : State) : reqIdent [] s = okWith s.body [0x6E, 0x01, 16, 4, 64, 32, 8] := rfl

/-- Settles O33: the reply of IDENT is fixed, and its event has an empty body. -/
theorem identAnswersTheFixedValues : Obligations.IdentAnswersTheFixedValues := fun _ _ ht =>
  Yields.of_ok _ _ ht (exec_ident ..) (reqIdent_eq _) rfl rfl rfl

/-! ## STATUS (R149) -/

/-- An absent one-byte field is FFh (R176). -/
theorem optByte_eq {α : Type} (f : α → Byte) (o : Option α) : optByte f o = (o.map f).getD 0xFF := by
  cases o <;> rfl

/-- The layout of the STATUS reply (R183). -/
theorem statusBytes_eq (s : State) :
    s.statusBytes =
      [s.modes.mode.code, (s.modes.haltCause.map HaltCause.code).getD 0xFF, s.modes.resetCause.code,
        flagByte s.haltIn.active, levelByte s.latches.toList,
        (s.motion.lane 0).state.code, (s.motion.lane 1).state.code, (s.motion.lane 2).state.code,
        (s.motion.lane 3).state.code,
        byteOf s.motion.poolFree, byteOf s.notices.waiting.length, byteOf s.notices.stack.length, s.notices.lost,
        s.link.rxErrors, s.link.overruns, levelByte s.motion.marks.toList] ++ bytes32 s.time := by
  rw [State.statusBytes, optByte_eq]
  rfl

theorem reqStatus_eq (s : State) : reqStatus [] s = okWith s.countsCleared.body s.statusBytes := rfl

/-- Settles O34: the reply of STATUS is taken before the counts are cleared. -/
theorem statusReportsAndClearsTheCounts : Obligations.StatusReportsAndClearsTheCounts := by
  rintro s seq ht u rfl
  have hreq := reqStatus_eq (received s)
  rw [statusBytes_eq] at hreq
  exact Yields.of_ok _ _ ht (exec_status ..) hreq rfl rfl rfl

/-! ## The checks of ENTER_RUN and ENTER_SETUP (R134, R136, R137) -/

theorem anyOwned_iff (m : Motion) : m.anyOwned = true ↔ ∃ a, (m.act a).owner ≠ .none := by
  simp [Motion.anyOwned, mem_allActs]

theorem anySafe_iff (m : Motion) : m.anySafe = true ↔ ∃ a, (m.act a).owner = .safe := by
  simp [Motion.anySafe, mem_allActs]

theorem anyRunning_iff (m : Motion) : m.anyRunning = true ↔ ∃ l, (m.lane l).state = .running := by
  simp [Motion.anyRunning, mem_allLanes]

theorem anyOwned_eq_false {m : Motion} (h : ∀ a, (m.act a).owner = .none) : m.anyOwned = false :=
  Bool.eq_false_iff.mpr fun hown => (anyOwned_iff m).mp hown |>.elim fun a ha => ha (h a)

theorem anySafe_eq_false {m : Motion} (h : ∀ a, (m.act a).owner ≠ .safe) : m.anySafe = false :=
  Bool.eq_false_iff.mpr fun hsafe => (anySafe_iff m).mp hsafe |>.elim h

theorem anyRunning_eq_false {m : Motion} (h : ∀ l, (m.lane l).state ≠ .running) : m.anyRunning = false :=
  Bool.eq_false_iff.mpr fun hrun => (anyRunning_iff m).mp hrun |>.elim h

/-! ## The first bad guard (R134, check 4) -/

section
variable {m : Motion} {a : ActIx}

theorem badGuard?_eq_none
    (h : (m.act a).managed = true → ∀ g ∈ (m.act a).cfg.guards, (m.act g.other).managed = true) :
    m.badGuard? a = none := by
  unfold Motion.badGuard?
  split
  · rename_i hm
    exact List.find?_eq_none.mpr fun g hg => by simp [h hm g hg]
  · rfl

theorem badGuard?_eq_some {pre post : List Guard} {g : Guard} (hm : (m.act a).managed = true)
    (hg : (m.act a).cfg.guards = pre ++ g :: post) (hbad : (m.act g.other).managed = false)
    (hpre : ∀ k ∈ pre, (m.act k.other).managed = true) : m.badGuard? a = some g := by
  unfold Motion.badGuard?
  rw [if_pos hm, hg]
  exact List.find?_eq_some_iff_append.mpr ⟨by simp [hbad], pre, post, rfl, fun k hk => by simp [hpre k hk]⟩

theorem notReady?_eq_none (h : ∀ b, m.badGuard? b = none) : m.notReady? = none := by
  simp [Motion.notReady?, h]

/-- The lowest-numbered actuator with a bad guard is the one reported. -/
theorem notReady?_eq_some {g : Guard} (hg : m.badGuard? a = some g) (hlow : ∀ b, b < a → m.badGuard? b = none) :
    m.notReady? = some (a, g.other) := by
  obtain ⟨below, above, hsplit⟩ := List.append_of_mem (mem_allActs a)
  have hsorted : (below ++ a :: above).Pairwise (· < ·) := hsplit ▸ List.pairwise_lt_finRange 16
  have hbelow : ∀ b ∈ below, b < a := fun b hb => (List.pairwise_append.mp hsorted).2.2 b hb a (by simp)
  exact List.findSome?_eq_some_iff.mpr
    ⟨below, a, above, hsplit, by simp [hg], fun b hb => by simp [hlow b (hbelow b hb)]⟩

end

/-! ## An actuator on entry to RUN (R135, item 1) -/

section
variable {v : View} {x : Actuator}

theorem enterRun_conflict (hr : x.state = .rest) (hc : conflicting v x) : x.enterRun v = x.faultWith v .conflict := by
  simp [Actuator.enterRun, hr, (inConflict_iff v x).mpr hc]

theorem enterRun_tracked (hr : x.state = .rest) (hc : ¬ conflicting v x) : x.enterRun v = (tracked v x).silent := by
  have hc' : ¬ x.inConflict v = true := mt (inConflict_iff v x).mp hc
  simp [Actuator.enterRun, hr, hc', fromSensors_eq]

theorem enterRun_not_rest (hr : x.state ≠ .rest) : x.enterRun v = x.silent := by
  simp [Actuator.enterRun, hr]

/-- An unowned actuator has no lane to report to. -/
theorem enterRun_lane?_eq_none (ho : x.owner = .none) : (x.enterRun v).report.lane? = none := by
  by_cases hr : x.state = .rest
  · by_cases hc : conflicting v x
    · rw [enterRun_conflict hr hc, (faultWith_spec v .conflict x).2, ho]
      rfl
    · rw [enterRun_tracked hr hc]
      rfl
  · rw [enterRun_not_rest hr]
    rfl

end

/-! ## A lane on entry to RUN (R45, R135) -/

/-- A lane as the entry to RUN leaves it: a WAITING one has evaluated its head. -/
def wokenLane (ln : Lane) : Lane := if ln.state = .waiting then evaluatedLane ln else ln

/-- What a lane adds to the start queue on entry to RUN. -/
def wokenEntry (l : LaneIx) (ln : Lane) : List QEntry := if ln.state = .waiting then entryOf .run l ln else []

theorem wakeLane_eq {v : Env} (hv : v.mode = .run) (l : LaneIx) (e : Event) :
    e.wakeLane v l = { e with m := { e.m.setLane l (wokenLane (e.m.lane l)) with
      queue := e.m.queue ++ wokenEntry l (e.m.lane l) } } := by
  unfold Event.wakeLane wokenLane wokenEntry
  by_cases hw : (e.m.lane l).state = .waiting
  · simp [hw, evaluate_eq v l e (.inl hv), evaluatedIn, hv]
  · simp [hw]

/-! ## The accepted ENTER_RUN (R135) -/

/-- What the entry of `s` to RUN leaves of the heart of the part, with the notices it raises. -/
structure RunEntered (s : State) (e : Event) : Prop where
  act : ∀ a, e.m.act a = ((s.motion.act a).enterRun (s.env.view a)).act
  lane : ∀ l, e.m.lane l = wokenLane (s.motion.lane l)
  queue : e.m.queue = s.motion.queue ++ allLanes.flatMap fun l => wokenEntry l (s.motion.lane l)
  marks : e.m.marks = s.motion.marks
  poolFree : e.m.poolFree = s.motion.poolFree
  raised : e.raised = allActs.flatMap fun a => ownNotices a ((s.motion.act a).enterRun (s.env.view a))
  started : e.started = []

/-- The part in RUN, with no halt cause (R135, item 2). -/
def inRun (s : State) : State := { s with modes := { s.modes with mode := .run, haltCause := none } }

/-- The event in which the actuators have entered RUN, and the lanes after them (R135, items 1 and 3). -/
def runEvent (s : State) : Event :=
  allLanes.foldl (fun e l => e.wakeLane (inRun s).env l)
    (allActs.foldl (fun e a => e.act s.env a Actuator.enterRun) s.event)

theorem toRun_eq (s : State) : s.toRun = { s := inRun s, e := runEvent s } := rfl

/-- With no actuator owned, the actuators act each on itself alone, and so do the lanes after them. -/
theorem runEvent_entered {s : State} (ho : ∀ a, (s.motion.act a).owner = .none) : RunEntered s (runEvent s) := by
  obtain ⟨aacts, alanes, apool, aqueue, amarks, astarted, araised⟩ :=
    foldl_act s.env Actuator.enterRun allActs allActs_nodup s.event fun a _ l hl => by
      rw [m_event, enterRun_lane?_eq_none (ho a)] at hl
      cases hl
  unfold runEvent
  -- the two folds stay opaque: their equations are all that is used, and unfolding them is costly
  generalize allActs.foldl (fun e a => e.act s.env a Actuator.enterRun) s.event = e at *
  obtain ⟨lacts, llanes, lpool, lqueue, lmarks, lraised, lstarted⟩ :=
    foldl_lanes (fun l e => e.wakeLane (inRun s).env l) (fun _ => wokenLane) wokenEntry (wakeLane_eq rfl) allLanes
      allLanes_nodup e
  generalize allLanes.foldl (fun e l => e.wakeLane (inRun s).env l) e = f at *
  have hlane : ∀ l, e.m.lane l = s.motion.lane l := fun l => congrArg (·.get l) alanes
  exact {
    act := fun a => (congrArg (·.get a) lacts).trans ((aacts a).trans (if_pos (mem_allActs a)))
    lane := fun l => (llanes l).trans ((if_pos (mem_allLanes l)).trans (congrArg wokenLane (hlane l)))
    queue := by simp only [lqueue, aqueue, m_event, hlane]
    marks := lmarks.trans amarks
    poolFree := lpool.trans apool
    raised := lraised.trans araised
    started := lstarted.trans astarted }

/-- The count of the reply to ENTER_RUN: the actuators in REST whose two sensors are both used and both active. -/
theorem entryConflicts_eq (s : State) :
    s.entryConflicts = allActs.filter fun a => (s.motion.act a).state == .rest &&
      (s.motion.act a).cfg.sensing == .both && (s.inputs.get (xInput a)).filtered &&
        (s.inputs.get (rInput a)).filtered := by
  simp only [State.entryConflicts, Actuator.inConflict, ← Bool.and_assoc]
  rfl

/-! ## ENTER_RUN (R134) -/

section
variable {s : State}

theorem reqEnterRun_in_run (h : s.modes.mode = .run) : reqEnterRun [] s = refuse .wrongState s := by
  simp [reqEnterRun, noPayload, h]

theorem reqEnterRun_halt_active (h : s.modes.mode ≠ .run) (hh : s.haltIn.active = true) :
    reqEnterRun [] s = refuse .haltActive s := by
  simp [reqEnterRun, noPayload, h, hh]

theorem reqEnterRun_busy (h : s.modes.mode ≠ .run) (hh : s.haltIn.active = false) (ho : s.motion.anyOwned = true) :
    reqEnterRun [] s = refuse .busy s := by
  simp [reqEnterRun, noPayload, h, hh, ho]

theorem reqEnterRun_not_ready {a b : ActIx} (h : s.modes.mode ≠ .run) (hh : s.haltIn.active = false)
    (ho : s.motion.anyOwned = false) (hn : s.motion.notReady? = some (a, b)) :
    reqEnterRun [] s = refuseWith .notReady [byteOf a.val, byteOf b.val] s := by
  simp [reqEnterRun, noPayload, h, hh, ho, hn]

theorem reqEnterRun_ready (h : s.modes.mode ≠ .run) (hh : s.haltIn.active = false)
    (ho : ∀ a, (s.motion.act a).owner = .none) (hn : s.motion.notReady? = none) :
    ∃ e, RunEntered s e ∧ reqEnterRun [] s =
      okWith { s := inRun s, e := e } [byteOf s.entryConflicts.length] :=
  ⟨runEvent s, runEvent_entered ho, by
    simp [reqEnterRun, noPayload, h, hh, anyOwned_eq_false ho, hn, toRun_eq]⟩

end

/-- Settles O36: the four refusals of ENTER_RUN in their order, and the entry to RUN as `RunEntered` says. -/
theorem enterRunEvaluatesTheLanes : Obligations.EnterRunEvaluatesTheLanes := by
  refine fun s seq ht => ⟨fun hmode => ?_, fun hmode hhalt => ?_, fun hmode hhalt howned => ?_,
    fun a pre g post hmode hhalt hfree hmanaged hguards hbad hpre hlow => ?_, fun hmode hhalt hfree hguards => ?_⟩
  · exact Refuses.of_refuse .wrongState (by decide) ht (exec_enterRun ..) (reqEnterRun_in_run hmode)
  · exact Refuses.of_refuse .haltActive (by decide) ht (exec_enterRun ..) (reqEnterRun_halt_active hmode hhalt)
  · exact Refuses.of_refuse .busy (by decide) ht (exec_enterRun ..)
      (reqEnterRun_busy hmode hhalt ((anyOwned_iff _).mpr howned))
  · have hfirst : s.motion.notReady? = some (a, g.other) :=
      notReady?_eq_some (badGuard?_eq_some hmanaged hguards hbad hpre) fun b hb => badGuard?_eq_none (hlow b hb)
    exact Refuses.of_refuseWith .notReady _ (by decide) ht (exec_enterRun ..)
      (reqEnterRun_not_ready hmode hhalt (anyOwned_eq_false hfree) hfirst)
  · have hready : s.motion.notReady? = none := notReady?_eq_none fun b => badGuard?_eq_none (hguards b)
    obtain ⟨e, hentered, hreq⟩ := reqEnterRun_ready (s := received s) hmode hhalt hfree hready
    refine ⟨_, _, (received s).entryConflicts.length,
      Yields.of_ok _ _ ht (exec_enterRun ..) hreq hentered.started rfl rfl, rfl, ?_,
      fun a hrest hconf => ⟨?_, ?_⟩, fun a hrest hconf => ?_, fun a hrest => ?_, fun l hw => ?_, fun l hw => ?_,
      hentered.queue, hentered.marks, hentered.poolFree⟩
    · rw [entryConflicts_eq]
      rfl
    · have hact := hentered.act a
      rw [received_motion, received_env, enterRun_conflict hrest hconf] at hact
      exact hact ▸ (faultWith_spec (s.env.view a) .conflict (s.motion.act a)).1
    · have hown : ownNotices a ((s.motion.act a).enterRun (s.env.view a)) = [actFaultNotice a .conflict] := by
        rw [enterRun_conflict hrest hconf]
        rfl
      rw [hentered.raised]
      exact List.mem_flatMap.mpr ⟨a, mem_allActs a, hown ▸ List.mem_singleton_self _⟩
    · exact (hentered.act a).trans (congrArg ActOut.act (enterRun_tracked hrest hconf))
    · exact (hentered.act a).trans (congrArg ActOut.act (enterRun_not_rest hrest))
    · exact (hentered.lane l).trans (if_pos hw)
    · exact (hentered.lane l).trans (if_neg hw)

/-! ## The accepted ENTER_SETUP from RUN (R45, R136) -/

/-- A lane as ENTER_SETUP from RUN leaves it. -/
def droppedLane (ln : Lane) : Lane :=
  if ln.state = .waiting ∨ ln.state = .queued then heldLane .waiting ln else ln

theorem dropLane_eq (l : LaneIx) {e : Event} (hq : e.m.queue = []) :
    e.dropLane l = e.setLane l (droppedLane (e.m.lane l)) := by
  have hhold : e.holdLane l .waiting = e.setLane l (heldLane .waiting (e.m.lane l)) := by
    rw [holdLane_eq, hq]
    unfold laneWritten
    rw [List.filter_nil, ← hq]
    rfl
  unfold Event.dropLane droppedLane
  cases hst : (e.m.lane l).state <;> simp [hhold, Event.setLane]

/-- With the start queue empty, the lanes are dropped each by itself. -/
theorem foldl_dropLane (ls : List LaneIx) : ∀ e : Event, e.m.queue = [] →
    ls.foldl (fun e l => e.dropLane l) e = ls.foldl (fun e l => e.setLane l (droppedLane (e.m.lane l))) e := by
  induction ls with
  | nil => exact fun _ _ => rfl
  | cons l ls ih =>
    intro e hq
    rw [List.foldl_cons, List.foldl_cons, dropLane_eq l hq]
    exact ih _ hq

/-- What ENTER_SETUP from RUN leaves of the heart of the part: the start queue is empty and the lanes are held. -/
structure RunLeft (s : State) (e : Event) : Prop where
  queue : e.m.queue = []
  acts : e.m.acts = s.motion.acts
  marks : e.m.marks = s.motion.marks
  poolFree : e.m.poolFree = s.motion.poolFree
  lane : ∀ l, e.m.lane l = droppedLane (s.motion.lane l)
  raised : e.raised = []
  started : e.started = []

theorem runToSetup_left (s : State) : RunLeft s s.runToSetup.e := by
  obtain ⟨hacts, hlanes, hpool, hqueue, hmarks, hraised, hstarted⟩ :=
    foldl_lanes (fun l e => e.setLane l (droppedLane (e.m.lane l))) (fun _ => droppedLane) (fun _ _ => [])
      (fun l e => by simp [Event.setLane, Motion.setLane]) allLanes allLanes_nodup s.event.clearQueue
  have heq : s.runToSetup.e = _ := foldl_dropLane allLanes s.event.clearQueue rfl
  rw [heq]
  exact {
    queue := hqueue.trans (by simp [Event.clearQueue])
    acts := hacts
    marks := hmarks
    poolFree := hpool
    lane := fun l => (hlanes l).trans (if_pos (mem_allLanes l))
    raised := hraised
    started := hstarted }

/-! ## ENTER_SETUP (R136, R137) -/

section
variable {s : State}

theorem reqEnterSetup_in_setup (h : s.modes.mode = .setup) : reqEnterSetup [] s = refuse .wrongState s := by
  simp [reqEnterSetup, noPayload, h]

theorem reqEnterSetup_run_busy (h : s.modes.mode = .run)
    (hb : s.motion.anyRunning = true ∨ s.motion.anyOwned = true) : reqEnterSetup [] s = refuse .busy s := by
  simp [reqEnterSetup, noPayload, h, hb]

theorem reqEnterSetup_run (h : s.modes.mode = .run) (hr : s.motion.anyRunning = false)
    (ho : s.motion.anyOwned = false) : reqEnterSetup [] s = okWith s.runToSetup [] := by
  simp [reqEnterSetup, noPayload, h, hr, ho]

theorem reqEnterSetup_halt_active (h : s.modes.mode = .halted) (hh : s.haltIn.active = true) :
    reqEnterSetup [] s = refuse .haltActive s := by
  simp [reqEnterSetup, noPayload, h, hh]

theorem reqEnterSetup_halted_busy (h : s.modes.mode = .halted) (hh : s.haltIn.active = false)
    (hs : s.motion.anySafe = true) : reqEnterSetup [] s = refuse .busy s := by
  simp [reqEnterSetup, noPayload, h, hh, hs]

theorem reqEnterSetup_halted {t : State} (h : s.modes.mode = .halted) (hh : s.haltIn.active = false)
    (hs : s.motion.anySafe = false) (ht : t = { s with modes := { s.modes with mode := .setup, haltCause := none } }) :
    reqEnterSetup [] s = okWith t.body [] := by
  simp [reqEnterSetup, noPayload, h, hh, hs, ht]

end

/-- Settles O37: ENTER_SETUP by the mode it finds. -/
theorem enterSetupHoldsTheLanes : Obligations.EnterSetupHoldsTheLanes := by
  refine fun s seq ht => ⟨fun hmode => ?_, fun hmode hbusy => ?_, fun hmode hstill hfree => ?_, fun hmode hhalt => ?_,
    fun hmode hhalt hsafe => ?_, fun hmode hhalt hsafe => ?_⟩
  · exact Refuses.of_refuse .wrongState (by decide) ht (exec_enterSetup ..) (reqEnterSetup_in_setup hmode)
  · exact Refuses.of_refuse .busy (by decide) ht (exec_enterSetup ..)
      (reqEnterSetup_run_busy hmode (hbusy.imp (anyRunning_iff _).mpr (anyOwned_iff _).mpr))
  · have hleft : RunLeft (received s) (received s).runToSetup.e := runToSetup_left (received s)
    exact ⟨_, Yields.of_ok _ _ ht (exec_enterSetup ..)
      (reqEnterSetup_run hmode (anyRunning_eq_false hstill) (anyOwned_eq_false hfree)) hleft.started rfl hleft.raised,
      rfl, hleft.queue, hleft.acts, hleft.marks, hleft.poolFree, hleft.lane⟩
  · exact Refuses.of_refuse .haltActive (by decide) ht (exec_enterSetup ..) (reqEnterSetup_halt_active hmode hhalt)
  · exact Refuses.of_refuse .busy (by decide) ht (exec_enterSetup ..)
      (reqEnterSetup_halted_busy hmode hhalt ((anySafe_iff _).mpr hsafe))
  · exact Yields.of_ok _ _ ht (exec_enterSetup ..) (reqEnterSetup_halted hmode hhalt (anySafe_eq_false hsafe) rfl)
      rfl rfl rfl

end Sys2Proof.Proofs.OperatingModes
end

section
/-! PROOFS of the family 09, the message reference: the link's own answers (R162, R174), the refused request (R175) and
LANE_RESUME (R57 to R59, R187). -/

namespace Sys2Proof.Proofs.MessageReference

open Sys2Proof.Machine Sys2Proof.Safety Sys2Proof.Proofs.LaneRequests Sys2Proof.Proofs.OperatingModes

/-! ## The request of a frame (R153, R172) -/

/-- A command that is a good frame means the request of its KIND (log 7). -/
theorem exec_spoken {c : Instr} {seq kind : Byte} {p : List Byte} (h : spoken c = some (seq, kind, p)) (s : State) :
    exec c s = .next (s.goodFrame seq kind (requestOf kind) p) := by
  cases c <;> cases h <;> rfl

theorem requestOf_unknown {kind : Byte} (h : kind ∉ requestKinds) : requestOf kind = unknownRequest := by
  simp only [requestKinds, List.mem_cons, List.not_mem_nil, or_false, not_or, ← BitVec.toNat_inj] at h
  unfold requestOf
  split <;> simp_all

/-! ## The length of a payload read byte by byte (R174) -/

/-- A payload with at least `n` bytes is `n` bytes and a rest. -/
theorem eq_ofFn_append_drop {n : Nat} {p : List Byte} (h : n ≤ p.length) :
    p = List.ofFn (fun i : Fin n => p[i.val]'(by omega)) ++ p.drop n := by
  have htake : List.ofFn (fun i : Fin n => p[i.val]'(by omega)) = p.take n :=
    List.ext_getElem (by simp [h]) (by simp)
  rw [htake, List.take_append_drop]

theorem length_lt_of_ne_ofFn_append {n : Nat} {p : List Byte}
    (h : ∀ (f : Fin n → Byte) q, p = List.ofFn f ++ q → False) : p.length < n :=
  Nat.lt_of_not_le fun hn => h _ _ (eq_ofFn_append_drop hn)

theorem length_ne_of_ne_ofFn {n : Nat} {p : List Byte} (h : ∀ f : Fin n → Byte, p = List.ofFn f → False) :
    p.length ≠ n := by
  rintro rfl
  exact h p.get (List.ofFn_get p).symm

/-! ## What the owner of a request can answer -/

/-- An owner's answer on `s` to a payload whose length does (`fits`) or does not fit the kind: BAD_LENGTH alone where it does
not; else a refusal with `s` as it was, or OK with a body that starts no step and leaves the receiver and the reply slots. -/
inductive Answers (s : State) : Bool → Served → Prop where
  | badLength : Answers s false (refuse .badLength s)
  | refusedWith (st : Status) (content : List Byte) (hst : st ≠ .ok) : Answers s true (refuseWith st content s)
  | taken (body : Body) (content : Motion → List Byte) (hstarted : body.e.started = [])
      (hrx : body.s.link.rx = s.link.rx) (hreplies : body.s.link.replies = s.link.replies) :
      Answers s true (okAfter body content)

namespace Answers

variable {s : State} {r : Served} {p : List Byte}

theorem refused (st : Status) (hst : st ≠ .ok := by decide) : Answers s true (refuse st s) := refusedWith st [] hst

/-- A request answered OK that works on the heart of the part alone. -/
theorem event (e : Event) (content : Motion → List Byte) (he : e.started = []) :
    Answers s true (okAfter { s := s, e := e } content) := taken _ content he rfl rfl

/-- A check of a request: where it is met, the request is refused. -/
theorem check {c : Prop} [Decidable c] (st : Status) (h : ¬ c → Answers s true r) (hst : st ≠ .ok := by decide) :
    Answers s true (if c then refuse st s else r) := by
  split
  · exact refused st hst
  · exact h ‹_›

theorem eq_badLength (h : Answers s false r) : r = refuse .badLength s := by
  cases h
  rfl

/-- A payload that is not the `n` bytes a request reads. -/
theorem otherLength {n : Nat} (h : ∀ f : Fin n → Byte, p = List.ofFn f → False) :
    Answers s (p.length == n) (refuse .badLength s) := by
  rw [beq_false_of_ne (length_ne_of_ne_ofFn h)]
  exact badLength

/-- A payload that has not even the `n` bytes that a request of varying length begins with. -/
theorem tooShort {n : Nat} {b : Bool} (h : ∀ (f : Fin n → Byte) q, p = List.ofFn f ++ q → False) :
    Answers s (decide (n ≤ p.length) && b) (refuse .badLength s) := by
  rw [decide_eq_false (Nat.not_le.mpr (length_lt_of_ne_ofFn_append h))]
  exact badLength

/-- The bytes behind the first `n`, two for each item of a count. -/
theorem counted {n m k : Nat} (h : m = k → Answers s true r) :
    Answers s (decide (n ≤ m + n) && m + n == n + k) (if m ≠ k then refuse .badLength s else r) := by
  by_cases hm : m = k
  · simpa [hm, Nat.add_comm] using h hm
  · have hne : m + n ≠ n + k := by omega
    rw [if_pos hm, beq_false_of_ne hne, Bool.and_false]
    exact badLength

theorem noPayload {f : State → Served} (h : Answers s true (f s)) :
    Answers s (p.length == 0) (noPayload f p s) := by
  cases p with
  | nil => exact h
  | cons => exact badLength

end Answers

/-! ### Mode control, the timebase and the link (spec 06 to 08) -/

section
variable (p : List Byte) (s : State)

theorem reqIdent_answers : Answers s (p.length == 0) (reqIdent p s) := .noPayload (.taken _ _ rfl rfl rfl)

theorem reqStatus_answers : Answers s (p.length == 0) (reqStatus p s) := .noPayload (.taken _ _ rfl rfl rfl)

theorem reqEnterSetup_answers : Answers s (p.length == 0) (reqEnterSetup p s) := by
  refine .noPayload ?_
  split
  · exact .refused .wrongState
  · exact .check .busy fun _ => .taken _ _ (runToSetup_left s).started rfl rfl
  · exact .check .haltActive fun _ => .check .busy fun _ => .taken _ _ rfl rfl rfl

theorem reqEnterRun_answers : Answers s (p.length == 0) (reqEnterRun p s) := by
  refine .noPayload (.check .wrongState fun _ => .check .haltActive fun _ => .check .busy fun hfree => ?_)
  have hunowned : ∀ a, (s.motion.act a).owner = .none := fun a =>
    not_not.mp fun ha => hfree ((anyOwned_iff _).mpr ⟨a, ha⟩)
  split
  · exact .refusedWith .notReady _ (by decide)
  · exact .taken _ _ (runEvent_entered hunowned).started rfl rfl

theorem reqRestart_answers : Answers s (p.length == 1) (reqRestart p s) := by
  unfold reqRestart
  split
  · split
    · exact .refused .badArg
    · exact .taken _ _ rfl rfl rfl
  · next h => exact .otherLength fun _ => h _

theorem reqSetTime_answers : Answers s (p.length == 4) (reqSetTime p s) := by
  unfold reqSetTime
  split
  · exact .check .wrongMode fun _ => .taken _ _ rfl rfl rfl
  · next h => exact .otherLength fun _ => h _ _ _ _

theorem reqLinkWatch_answers : Answers s (p.length == 2) (reqLinkWatch p s) := by
  unfold reqLinkWatch
  split
  · exact .check .badArg fun _ => .taken _ _ rfl rfl rfl
  · next h => exact .otherLength fun _ => h _ _

/-! ### The actuator table (spec 01) -/

theorem reqActConfig_answers :
    Answers s (decide (15 ≤ p.length) && p.length == 15 + 2 * (p.getD 14 0).toNat) (reqActConfig p s) := by
  unfold reqActConfig
  split
  · refine .counted fun _ => ?_
    split
    · exact .refused .badArg
    · exact .check .wrongMode fun _ => .check .busy fun _ => .event _ _ rfl
  · next h => exact .tooShort fun _ _ => h _ _ _ _ _ _ _ _ _ _ _ _ _ _ _ _

theorem reqActRead_answers : Answers s (p.length == 1) (reqActRead p s) := by
  unfold reqActRead
  split
  · split
    · exact .refused .badArg
    · exact .taken _ _ rfl rfl rfl
  · next h => exact .otherLength fun _ => h _

theorem reqJog_answers : Answers s (p.length == 3) (reqJog p s) := by
  unfold reqJog
  split
  · split
    · exact .check .badArg fun _ => .check .wrongMode fun _ => .check .wrongState fun _ => .check .busy fun _ =>
        .check .guard fun _ => .event _ _ (act_raised ..).1
    · exact .refused .badArg
  · next h => exact .otherLength fun _ => h _ _ _

theorem reqActClear_answers : Answers s (p.length == 1) (reqActClear p s) := by
  unfold reqActClear
  split
  · split
    · exact .refused .badArg
    · split
      · exact .event _ _ rfl
      · exact .refused .wrongState
  · next h => exact .otherLength fun _ => h _

/-! ### The input and output stages (spec 05) -/

theorem retime_started (i : InputIx) : (s.retime i).e.started = [] := by
  unfold State.retime
  dsimp only
  split
  · rfl
  · split
    · unfold State.levelChange
      refine (act_raised ..).1.trans ?_
      split <;> rfl
    · rfl

theorem retime_link (i : InputIx) : (s.retime i).s.link = s.link := by
  unfold State.retime
  dsimp only
  split
  · rfl
  · split <;> rfl

theorem reqInputConfig_answers : Answers s (p.length == 4) (reqInputConfig p s) := by
  unfold reqInputConfig
  split
  · split
    · exact .taken _ _ (retime_started ..) (congrArg Link.rx (retime_link ..)) (congrArg Link.replies (retime_link ..))
    · exact .refused .badArg
  · next h => exact .otherLength fun _ => h _ _ _ _

theorem reqIoRead_answers : Answers s (p.length == 0) (reqIoRead p s) := .noPayload (.taken _ _ rfl rfl rfl)

theorem reqLinesSet_answers : Answers s (p.length == 8) (reqLinesSet p s) := by
  unfold reqLinesSet
  split
  · exact .check .badArg fun _ => .check .haltActive fun _ => .taken _ _ rfl rfl rfl
  · next h => exact .otherLength fun _ => h _ _ _ _ _ _ _ _

theorem reqBankClear_answers : Answers s (p.length == 1) (reqBankClear p s) := by
  unfold reqBankClear
  split
  · split
    · exact .refused .badArg
    · refine .check .wrongState fun _ => .check .busy fun _ => ?_
      split <;> exact .taken _ _ rfl rfl rfl
  · next h => exact .otherLength fun _ => h _

/-! ### The lane engine and the start arbiter (spec 02, 03) -/

theorem post_started (v : Env) (l : LaneIx) (h : Machine.Step) (e : Event) : (e.post v l h).started = e.started := by
  unfold Event.post
  dsimp only
  split
  · exact (evaluate_frame v l _).started
  · rfl

theorem cancel_started {v : Env} {l : LaneIx} {tag : Tag} {e e' : Event} (h : e.cancel v l tag = some e') :
    e'.started = e.started := by
  unfold Event.cancel at h
  split at h
  · cases h
  · split at h
    · split at h <;> cases h
      · exact (keepSteps_frame l _ e).started
      · exact (dropHead_frame v l e).started
    · obtain ⟨kept, _, rfl⟩ := Option.map_eq_some_iff.mp h
      exact (keepSteps_frame l _ e).started

theorem flush_started (l : LaneIx) (e : Event) : (e.flush l).started = e.started := by
  unfold Event.flush
  split <;> rfl

theorem pause_started {l : LaneIx} {e e' : Event} (h : e.pause l = some e') : e'.started = e.started := by
  unfold Event.pause at h
  split at h <;> cases h <;> rfl

theorem abort_started {v : Env} {l : LaneIx} {e e' : Event} (h : e.abort v l = some e') : e'.started = e.started := by
  unfold Event.abort at h
  split at h <;> cases h
  · exact (abortStep_frame v l e).started
  · rfl
  · rfl

theorem resume_started {v : Env} {l : LaneIx} {skip : Bool} {e e' : Event} (h : e.resume v l skip = some e') :
    e'.started = e.started := by
  unfold Event.resume at h
  split at h
  · split at h <;> cases h
    · rfl
    · exact (evaluate_frame v l e).started
  · split at h <;> cases h
    · exact (dropHead_frame v l _).started
    · exact (evaluate_frame v l _).started
  all_goals cases h

theorem reqLaneConfig_answers : Answers s (p.length == 5) (reqLaneConfig p s) := by
  unfold reqLaneConfig
  split
  · split
    · exact .check .wrongMode fun _ => .event _ _ rfl
    · exact .refused .badArg
  · next h => exact .otherLength fun _ => h _ _ _ _ _

theorem reqStepPost_answers :
    Answers s (decide (13 ≤ p.length) && p.length == 13 + 2 * (p.getD 12 0).toNat) (reqStepPost p s) := by
  unfold reqStepPost
  split
  · refine .counted fun _ => ?_
    split
    · exact .refused .badArg
    · exact .check .laneFull fun _ => .check .poolFull fun _ => .event _ _ (post_started ..)
  · next h => exact .tooShort fun _ _ => h _ _ _ _ _ _ _ _ _ _ _ _ _ _

theorem reqStepCancel_answers : Answers s (p.length == 3) (reqStepCancel p s) := by
  unfold reqStepCancel
  split
  · split
    · exact .refused .badArg
    · split
      · exact .refused .notFound
      · next h => exact .event _ _ (cancel_started h)
  · next h => exact .otherLength fun _ => h _ _ _

theorem reqLaneFlush_answers : Answers s (p.length == 1) (reqLaneFlush p s) := by
  unfold reqLaneFlush
  split
  · split
    · exact .refused .badArg
    · exact .event _ _ (flush_started ..)
  · next h => exact .otherLength fun _ => h _

theorem reqLanePause_answers : Answers s (p.length == 1) (reqLanePause p s) := by
  unfold reqLanePause
  split
  · split
    · exact .refused .badArg
    · split
      · exact .refused .wrongState
      · next h => exact .event _ _ (pause_started h)
  · next h => exact .otherLength fun _ => h _

theorem reqLaneResume_answers : Answers s (p.length == 2) (reqLaneResume p s) := by
  unfold reqLaneResume
  split
  · split
    · split
      · exact .refused .wrongState
      · next h => exact .event _ _ (resume_started h)
    · exact .refused .badArg
  · next h => exact .otherLength fun _ => h _ _

theorem reqLaneAbort_answers : Answers s (p.length == 1) (reqLaneAbort p s) := by
  unfold reqLaneAbort
  split
  · split
    · exact .refused .badArg
    · split
      · exact .refused .wrongState
      · next h => exact .event _ _ (abort_started h)
  · next h => exact .otherLength fun _ => h _

theorem reqLaneRead_answers : Answers s (p.length == 1) (reqLaneRead p s) := by
  unfold reqLaneRead
  split
  · split
    · exact .refused .badArg
    · exact .taken _ _ rfl rfl rfl
  · next h => exact .otherLength fun _ => h _

theorem reqMarkSet_answers : Answers s (p.length == 2) (reqMarkSet p s) := by
  unfold reqMarkSet
  split
  · split
    · exact .event _ _ rfl
    · exact .refused .badArg
  · next h => exact .otherLength fun _ => h _ _

/-! ### The notice unit (spec 04) -/

theorem reqNoticeClass_answers : Answers s (p.length == 4) (reqNoticeClass p s) := by
  unfold reqNoticeClass
  split
  · split
    · exact .check .wrongMode fun _ => .taken _ _ rfl rfl rfl
    · exact .refused .badArg
  · next h => exact .otherLength fun _ => h _ _ _ _

theorem reqFloorSet_answers : Answers s (p.length == 1) (reqFloorSet p s) := by
  unfold reqFloorSet
  split
  · split
    · exact .refused .badArg
    · exact .taken _ _ rfl rfl rfl
  · next h => exact .otherLength fun _ => h _

theorem reqPeek_answers : Answers s (p.length == 0) (reqPeek p s) := .noPayload (.taken _ _ rfl rfl rfl)

theorem reqClaim_answers : Answers s (p.length == 0) (reqClaim p s) := by
  refine .noPayload ?_
  dsimp only
  split
  · exact .refusedWith .empty _ (by decide)
  · split
    · exact .refusedWith .stackFull _ (by decide)
    · exact .taken _ _ rfl rfl rfl

theorem reqClose_answers : Answers s (p.length == 2) (reqClose p s) := by
  unfold reqClose
  split
  · dsimp only
    split
    · split
      · exact .refused .empty
      · exact .taken _ _ rfl rfl rfl
    · split
      · exact .taken _ _ rfl rfl rfl
      · exact .refused .notFound
  · next h => exact .otherLength fun _ => h _ _

theorem reqDismiss_answers : Answers s (p.length == 2) (reqDismiss p s) := by
  unfold reqDismiss
  split
  · dsimp only
    split
    · exact .taken _ _ rfl rfl rfl
    · exact .refused .notFound
  · next h => exact .otherLength fun _ => h _ _

/-! ### Every request of R172 -/

theorem requestOf_answers : ∀ kind ∈ requestKinds, Answers s (lengthFits kind p) (requestOf kind p s) := by
  simp only [requestKinds, List.forall_mem_cons]
  exact ⟨reqIdent_answers p s, reqStatus_answers p s, reqEnterSetup_answers p s, reqEnterRun_answers p s,
    reqRestart_answers p s, reqSetTime_answers p s, reqLinkWatch_answers p s, reqActConfig_answers p s,
    reqActRead_answers p s, reqJog_answers p s, reqActClear_answers p s, reqInputConfig_answers p s,
    reqIoRead_answers p s, reqLinesSet_answers p s, reqBankClear_answers p s, reqLaneConfig_answers p s,
    reqStepPost_answers p s, reqStepCancel_answers p s, reqLaneFlush_answers p s, reqLanePause_answers p s,
    reqLaneResume_answers p s, reqLaneAbort_answers p s, reqLaneRead_answers p s, reqMarkSet_answers p s,
    reqNoticeClass_answers p s, reqFloorSet_answers p s, reqPeek_answers p s, reqClaim_answers p s,
    reqClose_answers p s, reqDismiss_answers p s, List.forall_mem_nil _⟩

end

/-- Settles O28: UNKNOWN_KIND where no request has the code, BAD_LENGTH where the owner's one answer is that. -/
theorem theLinkAnswersUnknownKindAndBadLength : Obligations.TheLinkAnswersUnknownKindAndBadLength := by
  refine fun c seq kind p s hc ht => ⟨fun hkind => ?_, fun hkind hlen => ?_⟩
  · exact Refuses.of_refuse .unknownKind (by decide) ht (exec_spoken hc s) (by rw [requestOf_unknown hkind]; rfl)
  · have hanswers := requestOf_answers p (received s) kind hkind
    rw [hlen] at hanswers
    exact Refuses.of_refuse .badLength (by decide) ht (exec_spoken hc s) hanswers.eq_badLength

/-! ## A refused request (R175) -/

/-- Of a KIND that R172 lists or does not list: a refusal, or OK in a body that leaves the receiver and the reply slots. -/
theorem requestOf_refuses_or_takes (kind : Byte) (p : List Byte) (s : State) :
    (∃ st content, st ≠ .ok ∧ requestOf kind p s = refuseWith st content s) ∨
    ∃ body content, requestOf kind p s = okAfter body content ∧ body.e.started = [] ∧
      body.s.link.rx = s.link.rx ∧ body.s.link.replies = s.link.replies := by
  by_cases hkind : kind ∈ requestKinds
  · have hanswers := requestOf_answers p s kind hkind
    generalize requestOf kind p s = r, lengthFits kind p = fits at hanswers ⊢
    cases hanswers with
    | badLength => exact .inl ⟨.badLength, [], by decide, rfl⟩
    | refusedWith st content hst => exact .inl ⟨st, content, hst, rfl⟩
    | taken body content hstarted hrx hreplies => exact .inr ⟨body, content, rfl, hstarted, hrx, hreplies⟩
  · exact .inl ⟨.unknownKind, [], by decide, by rw [requestOf_unknown hkind]; rfl⟩

/-- Settles O29, by what the owner of the request can answer. -/
theorem aRefusedRequestChangesTheLinkAlone : Obligations.ARefusedRequestChangesTheLinkAlone := by
  intro c seq kind p s hc ht
  obtain ⟨st, content, hst, hq⟩ | ⟨body, content, hq, hstarted, hrx, hreplies⟩ :=
    requestOf_refuses_or_takes kind p (received s)
  · exact ⟨st, content, fun h => absurd h hst, fun _ => Refuses.of_refuseWith st content hst ht (exec_spoken hc s) hq⟩
  · refine ⟨.ok, content (okAfter body content).ended.motion, fun _ => ?_, fun h => absurd rfl h⟩
    refine ⟨_, _, Yields.of_request ht (exec_spoken hc s) (by rw [hq]; rfl) (by rw [hq]; exact hstarted) rfl rfl, ?_⟩
    rw [hq]
    exact ⟨hrx, congrArg (· ++ _) hreplies, rfl⟩

/-! ## A lane without a step takes no part in the arbiter's turn (R71, R75) -/

/-- An entry that meets the condition of R75 stands for a step. -/
theorem head_of_findReady {v : Env} {e : Event} {l : LaneIx} (qs : List QEntry) :
    ∀ older, e.findReady v older qs = some l → (e.m.lane l).steps ≠ [] := by
  induction qs with
  | nil =>
    intro older h
    cases h
  | cons q rest ih =>
    intro older h
    unfold Event.findReady at h
    split at h
    · next hready =>
      cases h
      intro hnil
      simp [Event.ready, Motion.headOf, Lane.head?, hnil] at hready
    · exact ih _ h

theorem record_no_step {j : LaneIx} {e : Event} (h : (e.m.lane j).steps = []) (l : LaneIx) (a : ActIx)
    (r : MoveResult) : ((e.record l a r).m.lane j).steps = [] := by
  by_cases hj : j = l
  · subst hj
    unfold Event.record
    split
    · rw [mapHead_nil _ _ h, m_setLane, lane_setLane_self]
      exact h
    · exact h
  · rw [(record_frame l a r e).lanes j hj]
    exact h

theorem takeReport_no_step {j : LaneIx} {e : Event} (h : (e.m.lane j).steps = []) (a : ActIx) (r : Report) :
    ((e.takeReport a r).m.lane j).steps = [] := by
  cases r with
  | quiet => exact h
  | done w =>
    cases w with
    | lane l => exact record_no_step h l a .done
    | none | jog | safe => exact h
  | failed w c =>
    cases w with
    | lane l => exact record_no_step (e := e.raise _) h l a .failed
    | none | jog | safe => exact h

theorem startMoves_no_step {j : LaneIx} (v : Env) (l : LaneIx) (moves : List Move) :
    ∀ e : Event, (e.m.lane j).steps = [] → ((e.startMoves v l moves).m.lane j).steps = [] := by
  induction moves with
  | nil => exact fun _ h => h
  | cons mv rest ih => exact fun e h => ih _ (takeReport_no_step (by simpa using h) _ _)

/-- A lane that is not the one that starts keeps on having no step. -/
theorem startLane_no_step {j l : LaneIx} {e : Event} (h : (e.m.lane j).steps = []) (hj : j ≠ l) (v : Env) :
    ((e.startLane v l).m.lane j).steps = [] := by
  unfold Event.startLane
  split
  · exact h
  · next g rest _ =>
    rw [(actOnResults_frame v l _).lanes j hj]
    refine startMoves_no_step v l _ _ ?_
    unfold Event.beginRun
    rw [m_setLane, lane_setLane_ne _ _ _ _ hj]
    cases g.cond <;> exact h

theorem startReady_no_step {j : LaneIx} (v : Env) (n : Nat) :
    ∀ e : Event, (e.m.lane j).steps = [] → ((e.startReady v n).m.lane j).steps = [] := by
  induction n with
  | zero => exact fun _ h => h
  | succ n ih =>
    intro e h
    unfold Event.startReady
    split
    · exact h
    · next l hl =>
      have hj : j ≠ l := fun he => head_of_findReady _ _ hl (he ▸ h)
      exact ih _ (startLane_no_step h hj v)

/-- A lane that the body of an event leaves without a step has none at the end of the event. -/
theorem endOf_no_step {l : LaneIx} {u : State} (h : (u.motion.lane l).steps = []) (raised : List Raised) :
    ((endOf u raised).m.lane l).steps = [] := by
  unfold endOf Event.arbitrate
  split
  · exact startReady_no_step _ _ _ h
  · exact h

/-! ## LANE_RESUME (R57 to R59, R187) -/

theorem exec_laneResume (seq : Byte) (payload : List Byte) (s : State) :
    exec (.laneResume seq payload) s = .next (s.goodFrame seq 0x25 reqLaneResume payload) := rfl

theorem reqLaneResume_out_of_range {b o : Byte} (h : 3 < b.toNat ∨ 1 < o.toNat) (s : State) :
    reqLaneResume [b, o] s = refuse .badArg s := by
  obtain h | h := h
  · simp [reqLaneResume, indexOf_none 4 b h]
  · simp [reqLaneResume, resumeSkip, flagOf_none o h]

theorem reqLaneResume_none {l : LaneIx} {skip : Bool} {s : State} (h : s.event.resume s.env l skip = none) :
    reqLaneResume [byteOf l.val, flagByte skip] s = refuse .wrongState s := by
  simp [reqLaneResume, indexOf_byteOf 4 (by decide) l, resumeSkip, flagOf_flagByte, h]

theorem reqLaneResume_some {l : LaneIx} {skip : Bool} {s : State} {e : Event}
    (h : s.event.resume s.env l skip = some e) :
    reqLaneResume [byteOf l.val, flagByte skip] s = okAfter { s := s, e := e } fun m => m.countBytes l := by
  simp [reqLaneResume, indexOf_byteOf 4 (by decide) l, resumeSkip, flagOf_flagByte, h]

theorem beginNext_motion (fresh : Bool) (s : State) : (s.beginNext fresh).motion = s.motion := by
  obtain ⟨_, _, _, _, h⟩ := beginNext_frame fresh s
  rw [h]

theorem answer_motion (seq kind : Byte) (r : Served) : (r.answer seq kind).motion = r.ended.motion :=
  beginNext_motion ..

/-- A resume of a lane: the counts of its reply are those of the state the event ends in (R187, log 8). -/
theorem exec_laneResume_some {s : State} {seq : Byte} {l : LaneIx} {skip : Bool} {e : Event} (ht : Takes s seq)
    (h : (received s).event.resume s.env l skip = some e) :
    ∃ t, exec (.laneResume seq [byteOf l.val, flagByte skip]) s = .next t ∧
      After { answering s seq 0x25 .ok [byteOf t.motion.poolFree, byteOf (t.motion.lane l).steps.length] with
        motion := e.m } e.raised t := by
  have hstarted : e.started = [] := resume_started h
  have hafter := After.of_answer seq 0x25 (okAfter { s := received s, e := e } fun m => m.countBytes l) rfl hstarted
  refine ⟨_, (exec_laneResume ..).trans (congrArg _ (goodFrame_taken ht ..)), ?_⟩
  rw [reqLaneResume_some (s := received s) h, answer_motion]
  exact hafter

/-- A resume that leaves the lane without a step: its depth is still 0 at the end of the event. -/
theorem exec_laneResume_emptied {s : State} {seq : Byte} {l : LaneIx} {skip : Bool} {e : Event} (ht : Takes s seq)
    (h : (received s).event.resume s.env l skip = some e) (hs : (e.m.lane l).steps = []) :
    ∃ t, exec (.laneResume seq [byteOf l.val, flagByte skip]) s = .next t ∧
      After { answering s seq 0x25 .ok [byteOf t.motion.poolFree, 0] with motion := e.m } e.raised t := by
  obtain ⟨t, hexec, hafter⟩ := exec_laneResume_some ht h
  have hdepth : (t.motion.lane l).steps = [] := by
    rw [hafter.motion]
    exact endOf_no_step hs _
  rw [hdepth] at hafter
  exact ⟨t, hexec, hafter⟩

theorem resume_eq_none {l : LaneIx} {e : Event} (hp : (e.m.lane l).state ≠ .paused)
    (hf : (e.m.lane l).state ≠ .faulted) (v : Env) (skip : Bool) : e.resume v l skip = none := by
  unfold Event.resume
  split
  · exact absurd ‹_› hp
  · exact absurd ‹_› hf
  all_goals rfl

theorem resume_of_paused {l : LaneIx} {e : Event} (hst : (e.m.lane l).state = .paused)
    (hs : (e.m.lane l).steps ≠ []) (v : Env) (skip : Bool) :
    e.resume v l skip = some (laneWritten l (evaluatedIn v.mode (e.m.lane l)) e.m.poolFree
      (e.m.queue ++ entryOf v.mode l (e.m.lane l)) e) := by
  simp [Event.resume, hst, hs, evaluate_eq v l e (.inr hs), laneWritten]

theorem resume_of_paused_empty {l : LaneIx} {e : Event} (hst : (e.m.lane l).state = .paused)
    (hs : (e.m.lane l).steps = []) (v : Env) (skip : Bool) :
    e.resume v l skip = some (e.setLane l { e.m.lane l with state := .empty }) := by
  simp [Event.resume, hst, hs]

/-- RETRY: the failed head waits again, the fault gone, and is evaluated (R58). -/
theorem resume_retry {l : LaneIx} {e : Event} {ln : Lane} {h : Machine.Step} {rest : List Machine.Step}
    (hst : (e.m.lane l).state = .faulted) (hs : (e.m.lane l).steps = h :: rest)
    (hln : ln = { e.m.lane l with fault := none, failedAct := none, steps := h.again :: rest }) (v : Env) :
    e.resume v l false = some (laneWritten l (evaluatedIn v.mode ln) e.m.poolFree
      (e.m.queue ++ entryOf v.mode l ln) e) := by
  have hagain : (e.m.lane l).faultGone.mapHead Step.again = ln :=
    (mapHead_cons (e.m.lane l).faultGone Step.again h rest hs).trans hln.symm
  have heval := evaluate_laneWritten l ln e.m.poolFree e.m.queue e v (by simp [hln])
  simp only [Event.resume, hst, Bool.false_eq_true, if_false, hagain]
  exact congrArg some heval

/-- SKIP: the failed head goes back to the pool, the fault gone, and the next is evaluated or the lane is empty (R59). -/
theorem resume_skip {l : LaneIx} {e : Event} {ln : Lane} {h : Machine.Step} {rest : List Machine.Step}
    (hst : (e.m.lane l).state = .faulted) (hs : (e.m.lane l).steps = h :: rest)
    (hln : ln = { e.m.lane l with fault := none, failedAct := none, steps := rest })
    (hq : ∀ q ∈ e.m.queue, q.lane ≠ l) (v : Env) :
    e.resume v l true = some (laneWritten l (headDropped v.mode ln) (e.m.poolFree + 1)
      (e.m.queue ++ entryOf v.mode l ln) e) := by
  have hstay : (e.m.queue.filter fun q => q.lane ≠ l) = e.m.queue :=
    List.filter_eq_self.mpr fun q hmem => decide_eq_true (hq q hmem)
  have hdrop := dropHead_eq (e := e.setLane l (e.m.lane l).faultGone) (l := l) (ln := ln) (h := h) (rest := rest)
    (by simpa [Lane.faultGone] using hs) (by simp [hln, Lane.faultGone]) v
  simp only [Event.resume, hst, if_true]
  rw [hdrop, m_setLane, queue_setLane, hstay]
  simp [laneWritten]

/-- SKIP of the only step leaves the lane EMPTY (R59). -/
theorem resume_skip_only {l : LaneIx} {e : Event} {h : Machine.Step} (hst : (e.m.lane l).state = .faulted)
    (hs : (e.m.lane l).steps = [h]) (hq : ∀ q ∈ e.m.queue, q.lane ≠ l) (v : Env) :
    e.resume v l true = some (laneWritten l { e.m.lane l with
      state := .empty, delayTimer := none, fault := none, failedAct := none, steps := [] } (e.m.poolFree + 1)
      e.m.queue e) := by
  simpa [headDropped, entryOf] using resume_skip hst hs rfl hq v

/-- Settles O49: LANE_RESUME by the state of the lane and the option. -/
theorem laneResumeEvaluatesOrEmpties : Obligations.LaneResumeEvaluatesOrEmpties := by
  refine ⟨fun s seq ht => ⟨fun b o h => ?_, fun l skip => ⟨fun hp hf => ?_, fun ln free hcase => ?_⟩⟩,
    fun s seq l skip ht hq => ⟨fun hst hs => ?_, fun h hst hskip hs => ?_⟩⟩
  · exact Refuses.of_refuse .badArg (by decide) ht (exec_laneResume ..) (reqLaneResume_out_of_range h _)
  · exact Refuses.of_refuse .wrongState (by decide) ht (exec_laneResume ..)
      (reqLaneResume_none (resume_eq_none (e := (received s).event) hp hf _ skip))
  · obtain ⟨hst, rfl, hs, rfl⟩ | ⟨hst, rfl, rfl, h, rest, hs, rfl⟩ | ⟨hst, rfl, rfl, hq, h, g, rest, hs, rfl⟩ := hcase
    · exact exec_laneResume_some ht (resume_of_paused (e := (received s).event) hst hs s.env skip)
    · exact exec_laneResume_some ht (resume_retry (e := (received s).event) hst hs rfl s.env)
    · exact exec_laneResume_some ht (resume_skip (e := (received s).event) hst hs rfl hq s.env)
  · exact exec_laneResume_emptied ht (resume_of_paused_empty (e := (received s).event) hst hs s.env skip)
      (by simpa using hs)
  · subst hskip
    exact exec_laneResume_emptied ht (resume_skip_only (e := (received s).event) hst hs hq s.env) (by simp)

end Sys2Proof.Proofs.MessageReference
end

section
/-! PROOFS, what the laws of the part are kept through: every command is a row of turns, and a turn is a reset, a count of the
timers, or an event whose body is one of those the spec names. -/

namespace Sys2Proof.Proofs.EventRows

open Sys2Proof.Machine Sys2Proof.Safety Sys2Proof.Proofs.LaneRequests Sys2Proof.Proofs.OperatingModes
open Sys2Proof.Proofs.MessageReference Sys2Proof.Proofs.ActuatorRequests

/-! ## What the body of an event can do -/

/-- What an actuator does at an expiry of one of its timers or at a change of a sensor (R13 to R23). -/
inductive ActOp : (View → Actuator → ActOut) → Prop where
  | gap : ActOp Actuator.gapExpired
  | travel : ActOp Actuator.travelExpired
  | settle : ActOp Actuator.settleExpired
  | pulse : ActOp fun _ a => a.pulseExpired
  | sensor (e : End) : ActOp fun v a => a.sensorChanged v e

/-- A step that STEP_POST may append to a lane (R37, R38). -/
structure Postable (m : Motion) (h : Machine.Step) : Prop where
  some_move : 1 ≤ h.moves.length
  at_most_eight : h.moves.length ≤ 8
  distinct : (h.moves.map (·.act)).Nodup
  managed : ∀ mv ∈ h.moves, (m.act mv.act).managed = true
  held : h.run = .held
  fresh : h.results = [] ∧ h.startTime = none ∧ h.firstFailed = none

/-- What the body of an event makes of the heart `m` of the part in a device mode; `v` is what the end of the event sees. -/
inductive Heart (m : Motion) (mode : Mode) (v : Env) : Event → Prop where
  | still {e : Event} (he : e.m = m) (hv : v.mode = mode) : Heart m mode v e
  | raise {e : Event} (n : Raised) (h : Heart m mode v e) : Heart m mode v (e.raise n)
  | acts {e : Event} {f : View → Actuator → ActOut} (a : ActIx) (hf : ActOp f) (he : e.m = m) (hv : v.mode = mode) :
      Heart m mode v (e.act v a f)
  | jogs {e : Event} (a : ActIx) (target : MoveTarget) (he : e.m = m) (hv : v.mode = mode)
      (hmanaged : (m.act a).managed = true) (howner : (m.act a).owner = .none) (hrest : (m.act a).state = .rest) :
      Heart m mode v (e.act v a fun w x => x.startMove w .jog target)
  | latches {e : Event} (k : BankIx) (he : e.m = m) (hv : v.mode = mode) :
      Heart m mode v ((bankActs k).foldl (fun e a => e.act v a Actuator.latchSet) e)
  | halts {e : Event} (he : e.m = m) (hv : v.mode = .halted) : Heart m mode v (e.haltAll v)
  | delayOver {e : Event} (l : LaneIx) (he : e.m = m) (hv : v.mode = mode)
      (hw : ¬ (mode = .run ∧ (m.lane l).waits = true)) :
      Heart m mode v (e.setLane l { m.lane l with delayTimer := none })
  | limitOver {e : Event} (l : LaneIx) (he : e.m = m) (hv : v.mode = mode) (hd : m.limitDue l = true) :
      Heart m mode v ((e.leaveQueue l).faultLane l .failed .startLimit none)
  | joins {e : Event} (he : e.m = m) (hv : v.mode = mode) :
      Heart m mode v (allLanes.foldl (fun e l => e.joinReached v l) e)
  | timeTested {e : Event} (l : LaneIx) (now : Time) (place : Nat)
      (he : e.m = m.setLane l ((m.lane l).testPlace now place)) (hv : v.mode = mode) :
      Heart m mode v (e.joinReached v l)
  | entersRun {e : Event} {w : Env} (he : e.m = m) (hmode : mode ≠ .run) (hw : w.mode = mode) (hv : v.mode = .run)
      (howner : ∀ a, (m.act a).owner = .none) :
      Heart m mode v (allLanes.foldl (fun e l => e.wakeLane v l) (allActs.foldl (fun e a => e.act w a Actuator.enterRun) e))
  | leavesRun {e : Event} (he : e.m = m) (hmode : mode = .run) (hv : v.mode = .setup)
      (hrunning : ∀ l, (m.lane l).state ≠ .running) (howner : ∀ a, (m.act a).owner = .none) :
      Heart m mode v (allLanes.foldl (fun e l => e.dropLane l) e.clearQueue)
  | leavesHalted {e : Event} (he : e.m = m) (hmode : mode = .halted) (hv : v.mode = .setup) : Heart m mode v e
  | configures {e : Event} (a : ActIx) (c : ActConfig) (he : e.m = m) (hmode : mode = .setup) (hv : v.mode = mode)
      (hfree : m.configBusy a c.kind = false) : Heart m mode v (e.setAct a ((m.act a).configured (v.view a) c))
  | clears {e : Event} (a : ActIx) (he : e.m = m) (hv : v.mode = mode) (hf : (m.act a).state = .faulted) :
      Heart m mode v (e.setAct a ((m.act a).cleared (v.view a)))
  | linesSet {e : Event} (mask values : BitVec 32) (he : e.m = m.writeLines mask values) (hv : v.mode = mode)
      (hmask : m.masksManaged mask = false) : Heart m mode v e
  | latchCleared {e : Event} {s : State} (k : BankIx) (hs : s.motion = m) (he : e.m = (s.clearLatch k).motion)
      (hv : v.mode = mode) : Heart m mode v e
  | laneConfigured {e : Event} (l : LaneIx) (policy : FaultPolicy) (stop : BitVec 16) (notice : Bool) (he : e.m = m)
      (hmode : mode = .setup) (hv : v.mode = mode) :
      Heart m mode v (e.setLane l { m.lane l with
        policy := policy, cycleStop := stop, emptyNotice := notice, cycleCount := 0 })
  | posts {e : Event} (l : LaneIx) {h : Machine.Step} (hp : Postable m h) (he : e.m = m) (hv : v.mode = mode)
      (hroom : m.held l < 32) (hfree : m.poolFree ≠ 0) : Heart m mode v (e.post v l h)
  | cancels {e e' : Event} (l : LaneIx) (tag : Tag) (he : e.m = m) (hv : v.mode = mode)
      (hc : e.cancel v l tag = some e') : Heart m mode v e'
  | flushes {e : Event} (l : LaneIx) (he : e.m = m) (hv : v.mode = mode) : Heart m mode v (e.flush l)
  | pauses {e e' : Event} (l : LaneIx) (he : e.m = m) (hv : v.mode = mode) (hc : e.pause l = some e') : Heart m mode v e'
  | resumes {e e' : Event} (l : LaneIx) (skip : Bool) (he : e.m = m) (hv : v.mode = mode)
      (hc : e.resume v l skip = some e') : Heart m mode v e'
  | aborts {e e' : Event} (l : LaneIx) (he : e.m = m) (hv : v.mode = mode) (hc : e.abort v l = some e') :
      Heart m mode v e'
  | marks {e : Event} (k : MarkIx) (b : Bool) (he : e.m = m.setMark k b) (hv : v.mode = mode) : Heart m mode v e
  | clockSet {e : Event} (by_ now : Time) (he : e.m = (m.shiftEntry by_).testReached now) (hv : v.mode = mode) :
      Heart m mode v e

/-- What a request makes of the notice unit before the event's end (R89, R100, R104 to R107, R149). -/
inductive NoticesEdit (u : NoticeUnit) : NoticeUnit → Prop where
  | same : NoticesEdit u u
  | settings (classes : Vector ClassEntry 10) (floor : Fin 8) (lost : Byte) :
      NoticesEdit u { u with classes := classes, floor := floor, lost := lost }
  | claimed {r : Notice} (hr : u.next? = some r) (hroom : u.stack.length < 8) : NoticesEdit u (u.claim r)
  | closedTop {top : Notice} {rest : List Notice} (hs : u.stack = top :: rest) : NoticesEdit u { u with stack := rest }
  | closed (id : NoticeId) : NoticesEdit u { u with stack := dropId id u.stack }
  | dismissed (id : NoticeId) : NoticesEdit u { u with waiting := dropId id u.waiting }

/-- The transmit queue before the end of an event: as it was, or with the slot of the frame sent free (R165). -/
inductive SlotsEdit (k k' : Link) : Prop where
  | same (hr : k'.replies = k.replies) (hs : k'.replySending = k.replySending) (ha : k'.attnSlot = k.attnSlot)
  | replySent (hr : k'.replies = k.replies.tail) (hs : k'.replySending = false) (ha : k'.attnSlot = k.attnSlot)
  | attentionSent (hr : k'.replies = k.replies) (hs : k'.replySending = k.replySending) (ha : k'.attnSlot = .empty)

theorem SlotsEdit.refl (k : Link) : SlotsEdit k k := .same rfl rfl rfl

/-- An event taken on `s` has the body `b`. -/
structure EventOf (s : State) (b : Body) : Prop where
  inReset : b.s.modes.inReset = s.modes.inReset
  openEnd : b.s.openEnd = s.openEnd
  pending : b.s.pending = s.pending
  slots : SlotsEdit s.link b.s.link
  notices : NoticesEdit s.notices b.s.notices
  heart : Heart s.motion s.modes.mode b.s.env b.e

/-! ## Turns -/

/-- The blocks of `u` that the laws of the part read are those of `s`; the receiver, the watch, the inputs, the lines and the
mark of an outstanding tick event may differ. -/
structure Aside (s u : State) : Prop where
  motion : u.motion = s.motion
  notices : u.notices = s.notices
  mode : u.modes.mode = s.modes.mode
  inReset : u.modes.inReset = s.modes.inReset
  openEnd : u.openEnd = s.openEnd
  pending : u.pending = s.pending
  replies : u.link.replies = s.link.replies
  replySending : u.link.replySending = s.link.replySending
  attnSlot : u.link.attnSlot = s.link.attnSlot

/-- One turn of the part. -/
inductive Turn (s : State) : State → Prop where
  | resetBegins (kind : HardReset) : Turn s (s.beginReset kind)
  | defaults (cause : ResetCause) (straps : BitVec 2) : Turn s (s.defaulted cause straps)
  | restarts : Turn s s.restart1
  | aside {u : State} (h : Aside s u) : Turn s u
  | together (h : s.modes.inReset = none) : Turn s { s with openEnd := none }
  | opens (l : LaneIx) (h : Operating s) (hrun : s.modes.mode = .run) (hw : (s.motion.lane l).waits = true) :
      Turn s { s with motion := (s.event.joinQueue l).m, openEnd := some l }
  | counts (h : Operating s) : Turn s s.count
  | closes {b : Body} (h : Operating s) (hb : EventOf s b) : Turn s b.close
  | answers {b : Body} (seq kind : Byte) (content : Motion → List Byte) (h : Operating s)
      (hroom : s.link.replies.length < 4) (hb : EventOf s b) : Turn s ((okAfter b content).answer seq kind)
  | refuses (seq kind : Byte) {st : Status} (content : List Byte) (h : Operating s)
      (hroom : s.link.replies.length < 4) (hst : st ≠ .ok) : Turn s ((refuseWith st content s).answer seq kind)
  | replays (frame : List Byte) (h : Operating s) (hroom : s.link.replies.length < 4) : Turn s (s.replay frame)

/-- A row of turns. -/
abbrev Turns : State → State → Prop := Relation.ReflTransGen Turn

/-- A law that every turn keeps, every row of turns keeps. -/
theorem Turns.keep {P : State → Prop} (h : ∀ s t, P s → Turn s t → P t) {s t : State} (hs : P s) (ht : Turns s t) :
    P t := by
  induction ht with
  | refl => exact hs
  | tail _ hturn ih => exact h _ _ ih hturn

/-! ## Bodies of events -/

/-- An event with an empty body on a state that differs from `s` in what no law reads. -/
theorem EventOf.plain {s u : State} (h : Aside s u) : EventOf s u.body where
  inReset := h.inReset
  openEnd := h.openEnd
  pending := h.pending
  slots := .same h.replies h.replySending h.attnSlot
  notices := h.notices ▸ .same
  heart := .still h.motion h.mode

/-- An event in which the heart of the part alone acts. -/
theorem EventOf.ofHeart {s : State} {e : Event} (h : Heart s.motion s.modes.mode s.env e) :
    EventOf s { s := s, e := e } := ⟨rfl, rfl, rfl, .same rfl rfl rfl, .same, h⟩

theorem Aside.refl (s : State) : Aside s s := ⟨rfl, rfl, rfl, rfl, rfl, rfl, rfl, rfl, rfl⟩

theorem EventOf.empty (s : State) : EventOf s s.body := .plain (.refl s)

/-- A turn in which an event is taken. -/
theorem closes_turns {s : State} {b : Body} (hs : Operating s) (hb : EventOf s b) : Turns s b.close :=
  .single (.closes hs hb)

/-- An event that a check lets happen. -/
theorem closeIf_turns (p : Bool) {s : State} {b : Body} (hs : Operating s) (hb : EventOf s b) :
    Turns s (if p then b.close else s) := by
  split
  · exact closes_turns hs hb
  · exact .refl

theorem actEvent_of {s : State} (a : ActIx) {f : View → Actuator → ActOut} (hf : ActOp f) :
    EventOf s { s := s, e := s.event.act s.env a f } := .ofHeart (.acts a hf rfl rfl)

/-- A change of a filtered level is handed on (R122). -/
theorem levelChange_of (i : InputIx) (b : Bool) {s t : State} (h : Aside s t) : EventOf s (t.levelChange i b) where
  inReset := h.inReset
  openEnd := h.openEnd
  pending := h.pending
  slots := .same h.replies h.replySending h.attnSlot
  notices := h.notices ▸ .same
  heart := by
    refine .acts (inputAct i) (.sensor _) ?_ h.mode
    split <;> exact h.motion

theorem retime_of (i : InputIx) {s t : State} (h : Aside s t) : EventOf s (t.retime i) := by
  have hset : ∀ x, Aside s (t.setInput i x) := fun _ =>
    ⟨h.motion, h.notices, h.mode, h.inReset, h.openEnd, h.pending, h.replies, h.replySending, h.attnSlot⟩
  unfold State.retime
  dsimp only
  split
  · exact .plain (hset _)
  · split
    · exact levelChange_of i _ h
    · exact .plain (hset _)

theorem stabilityExpiry_of (i : InputIx) (s : State) :
    EventOf s (if (s.inputs.get i).inverted = (s.inputs.get i).filtered then
      (s.setInput i { s.inputs.get i with timer := none }).body else s.levelChange i (s.inputs.get i).inverted) := by
  split
  · exact .plain ⟨rfl, rfl, rfl, rfl, rfl, rfl, rfl, rfl, rfl⟩
  · exact levelChange_of i _ (.refl s)

/-- A halt or a link loss (R138, R141). -/
theorem haltPart_of (cause : HaltCause) (cls : NoticeClass) {s t : State} (h : Aside s t) :
    EventOf s (t.haltPart cause cls) := by
  unfold State.haltPart
  dsimp only
  split
  · exact ⟨h.inReset, h.openEnd, h.pending, .same h.replies h.replySending h.attnSlot, h.notices ▸ .same,
      .raise _ (.still h.motion h.mode)⟩
  · exact ⟨h.inReset, h.openEnd, h.pending, .same h.replies h.replySending h.attnSlot, h.notices ▸ .same,
      .raise _ (.halts h.motion rfl)⟩

theorem haltLevel_of (s : State) : EventOf s s.haltLevel := by
  have h : Aside s { s with haltIn := s.haltIn.expire } := ⟨rfl, rfl, rfl, rfl, rfl, rfl, rfl, rfl, rfl⟩
  unfold State.haltLevel
  dsimp only
  split
  · exact haltPart_of _ _ h
  · exact .plain h

theorem drvfltLevel_of (k : BankIx) (s : State) : EventOf s (s.drvfltLevel k) := by
  unfold State.drvfltLevel State.driverFault
  dsimp only
  split
  · split
    · exact ⟨rfl, rfl, rfl, .refl _, .same, .raise _ (.still rfl rfl)⟩
    · exact ⟨rfl, rfl, rfl, .refl _, .same, .raise _ (.latches k rfl rfl)⟩
  · exact .plain ⟨rfl, rfl, rfl, rfl, rfl, rfl, rfl, rfl, rfl⟩

/-! ## Events of the part itself -/

/-- What `f` does while the part operates is a row of turns, after which it operates still. -/
def Runs (f : State → State) : Prop := ∀ s, Operating s → Turns s (f s) ∧ Operating (f s)

theorem Runs.comp {f g : State → State} (hg : Runs g) (hf : Runs f) : Runs fun s => g (f s) := fun s hs =>
  have hrun := hf s hs
  have hthen := hg _ hrun.2
  ⟨hrun.1.trans hthen.1, hthen.2⟩

theorem Runs.foldl {α : Type} {f : State → α → State} (h : ∀ x, Runs fun s => f s x) (xs : List α) :
    Runs fun s => xs.foldl f s := by
  induction xs with
  | nil => exact fun s hs => ⟨.refl, hs⟩
  | cons x xs ih => exact ih.comp (h x)

/-- An event that a check lets happen, on a state that it leaves operating. -/
theorem Runs.closeIf {p : State → Bool} {b : State → Body} (h : ∀ s, EventOf s (b s)) :
    Runs fun s => if p s then (b s).close else s := fun s hs =>
  have hb := h s
  ⟨closeIf_turns _ hs hb,
    closeIf_operating _ _ _ hs ⟨hb.inReset.trans hs.1, hb.openEnd.trans hs.2⟩⟩

theorem shut_turns {s : State} (hs : s.modes.inReset = none) : Turns s s.shut := by
  unfold State.shut
  split
  · exact .refl
  · exact .trans (.single (.together hs)) (closes_turns ⟨hs, rfl⟩ (.empty _))

/-- An event taken while the part operates, alone or together with a delay expiry (log 24). -/
theorem liveAs_turns (p : Bool) {f : State → State} {s : State} (h : ∀ u, Operating u → Turns u (f u)) :
    Turns s (s.liveAs p f) := by
  unfold State.liveAs
  by_cases hs : s.modes.inReset = none
  · rw [if_neg (by simp [hs])]
    split
    · exact .trans (.single (.together hs)) (h _ ⟨hs, rfl⟩)
    · exact (shut_turns hs).trans (h _ (shut_operating hs))
  · rw [if_pos (by simpa [Option.isSome_iff_ne_none] using hs)]

theorem live_turns {f : State → State} {s : State} (h : ∀ u, Operating u → Turns u (f u)) : Turns s (s.live f) :=
  liveAs_turns false h

theorem actExpiry_runs {f : View → Actuator → ActOut} (hf : ActOp f) (p : State → Bool) (a : ActIx) :
    Runs fun s => if p s then s.actEvent a f else s := Runs.closeIf fun _ => actEvent_of a hf

theorem gapExpiry_runs (a : ActIx) : Runs (State.gapExpiry a) := actExpiry_runs .gap _ a

theorem travelExpiry_runs (a : ActIx) : Runs (State.travelExpiry a) := actExpiry_runs .travel _ a

theorem settleExpiry_runs (a : ActIx) : Runs (State.settleExpiry a) := actExpiry_runs .settle _ a

theorem pulseExpiry_runs (a : ActIx) : Runs (State.pulseExpiry a) := actExpiry_runs .pulse _ a

theorem delayExpiry_turns (l : LaneIx) {s : State} (hs : Operating s) :
    Turns s (s.delayExpiry l) ∧ (s.delayExpiry l).modes.inReset = none := by
  unfold State.delayExpiry
  split
  · split
    · next h =>
      obtain ⟨hrun, hw⟩ := Bool.and_eq_true_iff.mp h
      exact ⟨.single (.opens l hs (eq_of_beq hrun) hw), hs.1⟩
    · next h =>
      refine ⟨closes_turns hs (.ofHeart (.delayOver l rfl rfl fun hw => h ?_)), (close_modes _).symm ▸ hs.1⟩
      simp [hw.1, hw.2]
  · exact ⟨.refl, hs.1⟩

theorem limitExpiry_runs (l : LaneIx) : Runs (State.limitExpiry l) := fun s hs => by
  unfold State.limitExpiry
  split
  · next h =>
    exact ⟨closes_turns hs (.ofHeart (.limitOver l rfl rfl h)), close_operating _ hs⟩
  · exact ⟨.refl, hs⟩

theorem laneExpiries_runs (l : LaneIx) : Runs fun s => s.laneExpiries l := fun s hs => by
  obtain ⟨hdelay, hreset⟩ := delayExpiry_turns l hs
  obtain ⟨hlimit, hthen⟩ := limitExpiry_runs l _ (shut_operating hreset)
  exact ⟨(hdelay.trans (shut_turns hreset)).trans hlimit, hthen⟩

theorem stabilityExpiry_runs (i : InputIx) : Runs (State.stabilityExpiry i) :=
  Runs.closeIf fun s => stabilityExpiry_of i s

theorem haltExpiry_runs : Runs State.haltExpiry := Runs.closeIf fun s => haltLevel_of s

theorem drvfltExpiry_runs (k : BankIx) : Runs (State.drvfltExpiry k) := Runs.closeIf fun s => drvfltLevel_of k s

theorem gapExpired_runs : Runs State.gapExpired :=
  Runs.closeIf fun _ => .plain ⟨rfl, rfl, rfl, rfl, rfl, rfl, rfl, rfl, rfl⟩

theorem watchExpired_runs : Runs State.watchExpired :=
  Runs.closeIf fun _ => haltPart_of _ _ ⟨rfl, rfl, rfl, rfl, rfl, rfl, rfl, rfl, rfl⟩

theorem ownTick_runs : Runs State.ownTick := fun _ hs =>
  ⟨closes_turns hs ⟨rfl, rfl, rfl, .refl _, .same, .joins rfl rfl⟩, close_operating _ hs⟩

theorem takeDue_runs : Runs State.takeDue := by
  have howed : Runs fun s => if s.tickOwed then s.ownTick else s := fun s hs => by
    dsimp only
    split
    · exact ownTick_runs s hs
    · exact ⟨.refl, hs⟩
  have hact : ∀ a : ActIx, Runs fun s => s.actExpiries a := fun a =>
    (pulseExpiry_runs a).comp ((settleExpiry_runs a).comp ((travelExpiry_runs a).comp (gapExpiry_runs a)))
  exact watchExpired_runs.comp (gapExpired_runs.comp ((Runs.foldl drvfltExpiry_runs _).comp (haltExpiry_runs.comp
    ((Runs.foldl stabilityExpiry_runs _).comp ((Runs.foldl laneExpiries_runs _).comp
      ((Runs.foldl hact _).comp howed))))))

theorem tickEvent_turns {s : State} (hs : Operating s) : Turns s s.tickEvent := by
  have hcount : Turns s s.count := .single (.counts hs)
  unfold State.tickEvent
  dsimp only
  split
  · exact hcount.tail (.aside ⟨rfl, rfl, rfl, rfl, rfl, rfl, rfl, rfl, rfl⟩)
  · exact hcount.trans (ownTick_runs s.count hs).1

/-! ## Requests -/

/-- An owner's answer to a request: a refusal that leaves the part as it was, or OK with an event of the part. -/
inductive Serves (s : State) : Served → Prop where
  | refusedWith (st : Status) (content : List Byte) (hst : st ≠ .ok) : Serves s (refuseWith st content s)
  | taken {body : Body} (content : Motion → List Byte) (hbody : EventOf s body) : Serves s (okAfter body content)

namespace Serves

variable {s : State} {r : Served} {p : List Byte}

theorem refused (st : Status) (hst : st ≠ .ok := by decide) : Serves s (refuse st s) := refusedWith st [] hst

/-- A request answered OK that works on the heart of the part alone. -/
theorem event {e : Event} (content : Motion → List Byte) (h : Heart s.motion s.modes.mode s.env e) :
    Serves s (okAfter { s := s, e := e } content) := taken content (.ofHeart h)

/-- A request answered OK that changes nothing that a law reads. -/
theorem aside {u : State} (content : Motion → List Byte) (h : Aside s u) : Serves s (okAfter u.body content) :=
  taken content (.plain h)

/-- A request answered OK, its content fixed in its event. -/
theorem ok {body : Body} (content : List Byte) (h : EventOf s body) : Serves s (okWith body content) := taken _ h

/-- A request answered OK that works on the notice unit alone. -/
theorem notices {u : NoticeUnit} (content : List Byte) (h : NoticesEdit s.notices u) :
    Serves s (okNotices u content s) := taken _ ⟨rfl, rfl, rfl, .refl _, h, .still rfl rfl⟩

/-- A check of a request: where it is met, the request is refused. -/
theorem check {c : Prop} [Decidable c] (st : Status) (h : ¬ c → Serves s r) (hst : st ≠ .ok := by decide) :
    Serves s (if c then refuse st s else r) := by
  split
  · exact refused st hst
  · exact h ‹_›

theorem noPayload {f : State → Served} (h : Serves s (f s)) : Serves s (noPayload f p s) := by
  cases p with
  | nil => exact h
  | cons => exact refused .badLength

end Serves

/-- Moves that are accepted: two bytes each, on managed actuators. -/
theorem movesOf_taken {m : Motion} {bs : List Byte} : ∀ {ms : List Move}, movesOf m bs = some ms →
    bs.length = 2 * ms.length ∧ ∀ mv ∈ ms, (m.act mv.act).managed = true := by
  induction bs using pairs.induct with
  | case1 b t rest ih =>
    intro ms h
    simp only [movesOf, Option.bind_eq_bind, Option.bind_eq_some_iff] at h
    obtain ⟨act, hact, target, htarget, more, hmore, h⟩ := h
    obtain ⟨htakes, h⟩ := Option.ite_none_right_eq_some.mp h
    obtain rfl := Option.some.inj h
    obtain ⟨hlength, hmanaged⟩ := ih hmore
    refine ⟨by simp only [List.length_cons]; omega, fun mv hmv => ?_⟩
    obtain rfl | hmv := List.mem_cons.mp hmv
    · exact ((takesMove_iff ..).mp htakes).1
    · exact hmanaged mv hmv
  | case2 bs hbs =>
    intro ms h
    match bs with
    | [] => obtain rfl := Option.some.inj h; simp
    | [_] => cases h
    | b :: p :: rest => exact absurd rfl (hbs b p rest)

/-- What a posting in range spells is a step that may be appended. -/
theorem stepOf_postable {m : Motion} {l t1 t0 code a3 a2 a1 a0 l1 l0 flags mk count : Byte} {moves : List Byte}
    {lane : LaneIx} {h : Machine.Step} (hlen : moves.length = 2 * count.toNat)
    (hstep : stepOf m l t1 t0 code a3 a2 a1 a0 l1 l0 flags mk count moves = some (lane, h)) : Postable m h := by
  simp only [stepOf, Option.bind_eq_bind, Option.bind_eq_some_iff] at hstep
  obtain ⟨_, _, _, _, _, _, _, _, mvs, hmvs, hstep⟩ := hstep
  obtain ⟨_, hstep⟩ := Option.ite_none_left_eq_some.mp hstep
  obtain ⟨hcount, hstep⟩ := Option.ite_none_left_eq_some.mp hstep
  obtain ⟨hdistinct, hstep⟩ := Option.ite_none_left_eq_some.mp hstep
  cases hstep
  obtain ⟨hlength, hmanaged⟩ := movesOf_taken hmvs
  refine ⟨?_, ?_, (distinctActs_iff _).mp (by simpa using hdistinct), hmanaged, rfl, rfl, rfl, rfl⟩
  · show 1 ≤ mvs.length
    omega
  · show mvs.length ≤ 8
    omega

/-- An event that begins on a state whose heart, latches and time are written. -/
theorem EventOf.written {s : State} (m : Motion) (latches : Vector Bool 4) (time : Time)
    (h : Heart s.motion s.modes.mode ({ s with motion := m, latches := latches, time := time } : State).env
      ({ s with motion := m, latches := latches, time := time } : State).event) :
    EventOf s ({ s with motion := m, latches := latches, time := time } : State).body :=
  ⟨rfl, rfl, rfl, .refl _, .same, h⟩

/-- An event that ends in another device mode. -/
theorem EventOf.moded {s : State} (modes : ModeRecord) (e : Event) (hr : modes.inReset = s.modes.inReset)
    (h : Heart s.motion s.modes.mode ({ s with modes := modes } : State).env e) :
    EventOf s { s := { s with modes := modes }, e := e } := ⟨hr, rfl, rfl, .refl _, .same, h⟩

/-- The event of an accepted ENTER_RUN (R135). -/
theorem toRun_of {s : State} (hmode : s.modes.mode ≠ .run) (howner : ∀ a, (s.motion.act a).owner = .none) :
    EventOf s s.toRun := by
  have h : Heart s.motion s.modes.mode (inRun s).env (runEvent s) := by
    unfold runEvent
    exact .entersRun rfl hmode rfl rfl howner
  exact toRun_eq s ▸ .moded { s.modes with mode := .run, haltCause := none } (runEvent s) rfl h

/-- The event of an accepted LINES_SET (R114). -/
theorem writeLines_of {mask : BitVec 32} (values : BitVec 32) {s : State} (h : s.motion.masksManaged mask = false) :
    EventOf s ({ s with motion := s.motion.writeLines mask values } : State).body :=
  .written (s.motion.writeLines mask values) s.latches s.time (.linesSet mask values rfl rfl h)

/-- The event of an accepted BANK_CLEAR (R119). -/
theorem clearLatch_of (k : BankIx) (s : State) : EventOf s (s.clearLatch k).body :=
  .written (s.clearLatch k).motion (setVec s.latches k false) s.time (.latchCleared (s := s) k rfl rfl rfl)

section
variable (p : List Byte) (s : State)

theorem reqIdent_serves : Serves s (reqIdent p s) := .noPayload (.aside _ (.refl s))

theorem reqStatus_serves : Serves s (reqStatus p s) :=
  .noPayload (.taken _ ⟨rfl, rfl, rfl, .same rfl rfl rfl, .settings _ _ 0, .still rfl rfl⟩)

theorem reqEnterSetup_serves : Serves s (reqEnterSetup p s) := by
  refine .noPayload ?_
  split
  · exact .refused .wrongState
  · next hmode =>
    refine .check .busy fun hfree => .taken _ ⟨rfl, rfl, rfl, .refl _, .same, .leavesRun rfl hmode rfl ?_ ?_⟩
    · exact fun l hl => hfree (Bool.or_eq_true_iff.mpr (.inl ((anyRunning_iff _).mpr ⟨l, hl⟩)))
    · exact fun a => not_not.mp fun ha => hfree (Bool.or_eq_true_iff.mpr (.inr ((anyOwned_iff _).mpr ⟨a, ha⟩)))
  · next hmode =>
    exact .check .haltActive fun _ => .check .busy fun _ =>
      .taken _ ⟨rfl, rfl, rfl, .refl _, .same, .leavesHalted rfl hmode rfl⟩

theorem reqEnterRun_serves : Serves s (reqEnterRun p s) := by
  refine .noPayload (.check .wrongState fun hmode => .check .haltActive fun _ => .check .busy fun hfree => ?_)
  split
  · exact .refusedWith .notReady _ (by decide)
  · exact .ok _ (toRun_of (by simpa using hmode) fun a => not_not.mp fun ha => hfree ((anyOwned_iff _).mpr ⟨a, ha⟩))

theorem reqRestart_serves : Serves s (reqRestart p s) := by
  unfold reqRestart
  split
  · split
    · exact .refused .badArg
    · exact .aside _ ⟨rfl, rfl, rfl, rfl, rfl, rfl, rfl, rfl, rfl⟩
  · exact .refused .badLength

theorem reqSetTime_serves : Serves s (reqSetTime p s) := by
  unfold reqSetTime
  split
  · exact .check .wrongMode fun _ => .taken _ ⟨rfl, rfl, rfl, .refl _, .same, .clockSet _ _ rfl rfl⟩
  · exact .refused .badLength

theorem reqLinkWatch_serves : Serves s (reqLinkWatch p s) := by
  unfold reqLinkWatch
  split
  · exact .check .badArg fun _ => .aside _ ⟨rfl, rfl, rfl, rfl, rfl, rfl, rfl, rfl, rfl⟩
  · exact .refused .badLength

theorem reqActConfig_serves : Serves s (reqActConfig p s) := by
  unfold reqActConfig
  split
  · refine .check .badLength fun _ => ?_
    split
    · exact .refused .badArg
    · exact .check .wrongMode fun hmode => .check .busy fun hbusy =>
        .event _ (.configures _ _ rfl (by simpa using hmode) rfl (by simpa using hbusy))
  · exact .refused .badLength

theorem reqActRead_serves : Serves s (reqActRead p s) := by
  unfold reqActRead
  split
  · split
    · exact .refused .badArg
    · exact .aside _ (.refl s)
  · exact .refused .badLength

theorem reqJog_serves : Serves s (reqJog p s) := by
  unfold reqJog
  split
  · split
    · next a target _ _ _ _ =>
      refine .check .badArg fun htakes => .check .wrongMode fun _ => .check .wrongState fun _ => .check .busy fun hbusy =>
        .check .guard fun _ => .event _ (.jogs a target rfl rfl ?_ ?_ ?_)
      · exact ((takesMove_iff ..).mp (by simpa using htakes)).1
      · exact not_not.mp fun ho => hbusy (by simp [ho])
      · exact not_not.mp fun hr => hbusy (by simp [hr])
    · exact .refused .badArg
  · exact .refused .badLength

theorem reqActClear_serves : Serves s (reqActClear p s) := by
  unfold reqActClear
  split
  · split
    · exact .refused .badArg
    · split
      · next hf => exact .event _ (.clears _ rfl rfl (eq_of_beq hf))
      · exact .refused .wrongState
  · exact .refused .badLength

theorem reqInputConfig_serves : Serves s (reqInputConfig p s) := by
  unfold reqInputConfig
  split
  · split
    · exact .taken _ (retime_of _ ⟨rfl, rfl, rfl, rfl, rfl, rfl, rfl, rfl, rfl⟩)
    · exact .refused .badArg
  · exact .refused .badLength

theorem reqIoRead_serves : Serves s (reqIoRead p s) := .noPayload (.aside _ (.refl s))

theorem reqLinesSet_serves : Serves s (reqLinesSet p s) := by
  unfold reqLinesSet
  split
  · exact .check .badArg fun hmask => .check .haltActive fun _ =>
      .ok _ (writeLines_of _ (by simpa using hmask))
  · exact .refused .badLength

theorem reqBankClear_serves : Serves s (reqBankClear p s) := by
  unfold reqBankClear
  split
  · split
    · exact .refused .badArg
    · refine .check .wrongState fun _ => .check .busy fun _ => ?_
      split
      · exact .ok (body := (s.clearLatch _).body) _ (clearLatch_of _ s)
      · exact .aside _ (.refl s)
  · exact .refused .badLength

theorem reqLaneConfig_serves : Serves s (reqLaneConfig p s) := by
  unfold reqLaneConfig
  split
  · split
    · exact .check .wrongMode fun hmode => .event _ (.laneConfigured _ _ _ _ rfl (by simpa using hmode) rfl)
    · exact .refused .badArg
  · exact .refused .badLength

theorem reqStepCancel_serves : Serves s (reqStepCancel p s) := by
  unfold reqStepCancel
  split
  · split
    · exact .refused .badArg
    · split
      · exact .refused .notFound
      · next h => exact .event _ (.cancels _ _ rfl rfl h)
  · exact .refused .badLength

theorem reqLaneFlush_serves : Serves s (reqLaneFlush p s) := by
  unfold reqLaneFlush
  split
  · split
    · exact .refused .badArg
    · exact .event _ (.flushes _ rfl rfl)
  · exact .refused .badLength

theorem reqLanePause_serves : Serves s (reqLanePause p s) := by
  unfold reqLanePause
  split
  · split
    · exact .refused .badArg
    · split
      · exact .refused .wrongState
      · next h => exact .event _ (.pauses _ rfl rfl h)
  · exact .refused .badLength

theorem reqLaneResume_serves : Serves s (reqLaneResume p s) := by
  unfold reqLaneResume
  split
  · split
    · split
      · exact .refused .wrongState
      · next h => exact .event _ (.resumes _ _ rfl rfl h)
    · exact .refused .badArg
  · exact .refused .badLength

theorem reqLaneAbort_serves : Serves s (reqLaneAbort p s) := by
  unfold reqLaneAbort
  split
  · split
    · exact .refused .badArg
    · split
      · exact .refused .wrongState
      · next h => exact .event _ (.aborts _ rfl rfl h)
  · exact .refused .badLength

theorem reqLaneRead_serves : Serves s (reqLaneRead p s) := by
  unfold reqLaneRead
  split
  · split
    · exact .refused .badArg
    · exact .aside _ (.refl s)
  · exact .refused .badLength

theorem reqMarkSet_serves : Serves s (reqMarkSet p s) := by
  unfold reqMarkSet
  split
  · split
    · exact .event _ (.marks _ _ rfl rfl)
    · exact .refused .badArg
  · exact .refused .badLength

theorem reqNoticeClass_serves : Serves s (reqNoticeClass p s) := by
  unfold reqNoticeClass
  split
  · split
    · exact .check .wrongMode fun _ => .notices _ (.settings _ s.notices.floor s.notices.lost)
    · exact .refused .badArg
  · exact .refused .badLength

theorem reqFloorSet_serves : Serves s (reqFloorSet p s) := by
  unfold reqFloorSet
  split
  · split
    · exact .refused .badArg
    · exact .notices _ (.settings s.notices.classes _ s.notices.lost)
  · exact .refused .badLength

theorem reqPeek_serves : Serves s (reqPeek p s) := .noPayload (.aside _ (.refl s))

theorem reqClaim_serves : Serves s (reqClaim p s) := by
  refine .noPayload ?_
  dsimp only
  split
  · exact .refusedWith .empty _ (by decide)
  · next r hr =>
    split
    · exact .refusedWith .stackFull _ (by decide)
    · next hroom => exact .notices _ (.claimed hr (Nat.not_le.mp hroom))

theorem reqClose_serves : Serves s (reqClose p s) := by
  unfold reqClose
  split
  · dsimp only
    split
    · split
      · exact .refused .empty
      · next hs => exact .notices _ (.closedTop hs)
    · split
      · exact .notices _ (.closed _)
      · exact .refused .notFound
  · exact .refused .badLength

theorem reqDismiss_serves : Serves s (reqDismiss p s) := by
  unfold reqDismiss
  split
  · dsimp only
    split
    · exact .notices _ (.dismissed _)
    · exact .refused .notFound
  · exact .refused .badLength

theorem reqStepPost_serves : Serves s (reqStepPost p s) := by
  unfold reqStepPost
  split
  · refine .check .badLength fun hlen => ?_
    split
    · exact .refused .badArg
    · next hstep =>
      exact .check .laneFull fun hfull => .check .poolFull fun hfree =>
        .event _ (.posts _ (stepOf_postable (not_not.mp hlen) hstep) rfl rfl (Nat.not_le.mp hfull) hfree)
  · exact .refused .badLength

/-- Whatever the KIND, the request is refused or answered OK with an event of the part. -/
theorem requestOf_serves (kind : Byte) : Serves s (requestOf kind p s) := by
  by_cases hkind : kind ∈ requestKinds
  · revert kind
    simp only [requestKinds, List.forall_mem_cons]
    exact ⟨reqIdent_serves p s, reqStatus_serves p s, reqEnterSetup_serves p s, reqEnterRun_serves p s,
      reqRestart_serves p s, reqSetTime_serves p s, reqLinkWatch_serves p s, reqActConfig_serves p s,
      reqActRead_serves p s, reqJog_serves p s, reqActClear_serves p s, reqInputConfig_serves p s,
      reqIoRead_serves p s, reqLinesSet_serves p s, reqBankClear_serves p s, reqLaneConfig_serves p s,
      reqStepPost_serves p s, reqStepCancel_serves p s, reqLaneFlush_serves p s, reqLanePause_serves p s,
      reqLaneResume_serves p s, reqLaneAbort_serves p s, reqLaneRead_serves p s, reqMarkSet_serves p s,
      reqNoticeClass_serves p s, reqFloorSet_serves p s, reqPeek_serves p s, reqClaim_serves p s,
      reqClose_serves p s, reqDismiss_serves p s, List.forall_mem_nil _⟩
  · rw [requestOf_unknown hkind]
    exact .refused .unknownKind

end

/-! ## Frames -/

theorem received_aside (s : State) : Aside s (received s) := ⟨rfl, rfl, rfl, rfl, rfl, rfl, rfl, rfl, rfl⟩

/-- A good frame handled in the order of R160. -/
theorem handleFrame_turns (seq kind : Byte) (p : List Byte) {s : State} (hs : Operating s) :
    Turns s (s.handleFrame seq kind (requestOf kind) p) := by
  have hreceived : Turns s (received s) := .single (.aside (received_aside s))
  have hanswer : s.link.replies.length < 4 →
      Turns s ((requestOf kind p (received s)).answer seq kind) := fun hroom => by
    have hserves := requestOf_serves p (received s) kind
    generalize requestOf kind p (received s) = r at hserves ⊢
    cases hserves with
    | refusedWith st content hst => exact hreceived.tail (.refuses seq kind content hs hroom hst)
    | taken content hbody => exact hreceived.tail (.answers seq kind content hs hroom hbody)
  rw [handleFrame_eq]
  split
  · exact hreceived.trans (closes_turns hs (.plain ⟨rfl, rfl, rfl, rfl, rfl, rfl, rfl, rfl, rfl⟩))
  · next hroom =>
    have hroom := Nat.not_le.mp hroom
    split
    · exact hanswer hroom
    · split
      · exact hreceived.tail (.replays _ hs hroom)
      · exact hanswer hroom

theorem goodFrame_turns (seq kind : Byte) (p : List Byte) (s : State) :
    Turns s (s.goodFrame seq kind (requestOf kind) p) := by
  refine liveAs_turns _ fun u hu => ?_
  split
  · exact closes_turns hu (.plain ⟨rfl, rfl, rfl, rfl, rfl, rfl, rfl, rfl, rfl⟩)
  · exact handleFrame_turns seq kind p hu

/-- A receiver that is discarded or replaced, or a count, beside which nothing acts. -/
theorem relink_turns {s u : State} (hs : Operating s) (h : Aside s u) : Turns s u.body.close :=
  closes_turns hs (.plain h)

theorem discardFrame_aside (s : State) : Aside s s.discardFrame := ⟨rfl, rfl, rfl, rfl, rfl, rfl, rfl, rfl, rfl⟩

theorem takeByte_turns (b : Byte) {s : State} (hs : Operating s) : Turns s (s.takeByte b) := by
  unfold State.takeByte
  dsimp only
  split
  · split
    · exact goodFrame_turns _ _ _ s
    · unfold State.badFrame
      split
      · exact relink_turns hs ⟨rfl, rfl, rfl, rfl, rfl, rfl, rfl, rfl, rfl⟩
      · exact relink_turns hs (discardFrame_aside s)
  · split
    · exact relink_turns hs (discardFrame_aside s)
    · exact relink_turns hs ⟨rfl, rfl, rfl, rfl, rfl, rfl, rfl, rfl, rfl⟩

theorem takeBroken_turns {s : State} (hs : Operating s) : Turns s s.takeBroken := by
  unfold State.takeBroken
  split
  · exact relink_turns hs (.refl s)
  · exact relink_turns hs (discardFrame_aside s)

theorem restartNow_turns (level : RestartLevel) (straps : BitVec 2) (s : State) : Turns s (s.restartNow level straps) := by
  cases level with
  | level0 => exact .single (.defaults _ _)
  | level1 => exact .single .restarts

theorem replySent_of (s : State) : EventOf s s.replySent.body :=
  ⟨rfl, rfl, rfl, .replySent rfl rfl rfl, .same, .still rfl rfl⟩

theorem frameSent_turns {s : State} (hs : Operating s) : Turns s s.frameSent := by
  unfold State.frameSent
  split
  · split
    · split
      · exact restartNow_turns _ _ s
      · exact closes_turns hs (replySent_of s)
    · exact closes_turns hs (replySent_of s)
  · split
    · exact .refl
    · exact closes_turns hs ⟨rfl, rfl, rfl, .attentionSent rfl rfl rfl, .same, .still rfl rfl⟩

/-! ## Every command -/

/-- A change of a pin: taken alone in a reset, else an event of the part. -/
theorem pin_turns {s u : State} {f : State → State} {same : Prop} [Decidable same] (hu : Aside s u)
    (hf : ∀ t, Operating t → Turns t (f t)) :
    ∃ t, (if same then answered (s.live id) else if s.modes.inReset.isSome then answered u
      else answered (s.live f)) = .next t ∧ Turns s t := by
  split
  · exact ⟨_, rfl, live_turns fun _ _ => .refl⟩
  · split
    · exact ⟨_, rfl, .single (.aside hu)⟩
    · exact ⟨_, rfl, live_turns hf⟩

theorem atTimeReached_turns (l : LaneIx) (place : Nat) (s : State) :
    ∃ t, exec (.atTimeReached l place) s = .next t ∧ Turns s t := by
  refine ⟨_, rfl, live_turns fun u hu => ?_⟩
  dsimp only
  split
  · split
    · exact (ownTick_runs u hu).1
    · exact .refl
  · exact closes_turns hu ⟨rfl, rfl, rfl, .refl _, .same, .timeTested l u.time place rfl rfl⟩

theorem stepStart_turns (s : State) : ∃ t, exec .stepStart s = .next t ∧ Turns s t := by
  refine ⟨_, rfl, live_turns fun u hu => ?_⟩
  unfold State.startEvent
  split
  · exact .refl
  · split
    · split
      · exact (ownTick_runs u hu).1
      · exact closes_turns hu (.empty u)
    · exact .refl

theorem resetEnd_turns (straps : BitVec 2) (s : State) : ∃ t, exec (.resetEnd straps) s = .next t ∧ Turns s t := by
  unfold exec execResetEnd
  dsimp only
  split
  · exact ⟨_, rfl, live_turns fun _ _ => .refl⟩
  · exact ⟨_, rfl, .single (.defaults _ _)⟩
  · exact ⟨_, rfl, .single (.defaults _ _)⟩

/-- Every command answers a next state, to which a row of turns leads. -/
theorem exec_turns (c : Instr) (s : State) : ∃ t, exec c s = .next t ∧ Turns s t := by
  cases hspoken : spoken c with
  | some frame => exact ⟨_, exec_spoken hspoken s, goodFrame_turns _ _ _ s⟩
  | none =>
    cases c with
    | powerOn => exact ⟨_, rfl, .single (.resetBegins _)⟩
    | resetAsserted =>
      refine ⟨_, rfl, ?_⟩
      split
      · exact .refl
      · exact .single (.resetBegins _)
    | resetEnd straps => exact resetEnd_turns straps s
    | tick =>
      refine ⟨_, rfl, live_turns fun u hu => ?_⟩
      exact (takeDue_runs u hu).1.trans (tickEvent_turns (takeDue_runs u hu).2)
    | atTimeReached l place => exact atTimeReached_turns l place s
    | stepStart => exact stepStart_turns s
    | gapTimerExpiry a => exact ⟨_, rfl, live_turns fun u hu => (gapExpiry_runs a u hu).1⟩
    | travelTimerExpiry a => exact ⟨_, rfl, live_turns fun u hu => (travelExpiry_runs a u hu).1⟩
    | settleTimerExpiry a => exact ⟨_, rfl, live_turns fun u hu => (settleExpiry_runs a u hu).1⟩
    | pulseTimerExpiry a => exact ⟨_, rfl, live_turns fun u hu => (pulseExpiry_runs a u hu).1⟩
    | delayTimerExpiry l => exact ⟨_, rfl, live_turns fun _ hu => (delayExpiry_turns l hu).1⟩
    | startLimitExpiry l => exact ⟨_, rfl, live_turns fun u hu => (limitExpiry_runs l u hu).1⟩
    | inputRawChange i level =>
      exact pin_turns ⟨rfl, rfl, rfl, rfl, rfl, rfl, rfl, rfl, rfl⟩ fun _ ht =>
        closes_turns ht (retime_of i ⟨rfl, rfl, rfl, rfl, rfl, rfl, rfl, rfl, rfl⟩)
    | stabilityTimerExpiry i => exact ⟨_, rfl, live_turns fun u hu => (stabilityExpiry_runs i u hu).1⟩
    | haltPinChange level =>
      exact pin_turns ⟨rfl, rfl, rfl, rfl, rfl, rfl, rfl, rfl, rfl⟩ fun _ ht =>
        relink_turns ht ⟨rfl, rfl, rfl, rfl, rfl, rfl, rfl, rfl, rfl⟩
    | haltFilterExpiry => exact ⟨_, rfl, live_turns fun u hu => (haltExpiry_runs u hu).1⟩
    | drvfltPinChange k level =>
      exact pin_turns ⟨rfl, rfl, rfl, rfl, rfl, rfl, rfl, rfl, rfl⟩ fun _ ht =>
        relink_turns ht ⟨rfl, rfl, rfl, rfl, rfl, rfl, rfl, rfl, rfl⟩
    | drvfltFilterExpiry k => exact ⟨_, rfl, live_turns fun u hu => (drvfltExpiry_runs k u hu).1⟩
    | rxByte b framingError =>
      refine ⟨_, rfl, liveAs_turns _ fun u hu => ?_⟩
      split
      · exact takeBroken_turns hu
      · exact takeByte_turns b hu
    | interByteGapExpiry => exact ⟨_, rfl, live_turns fun u hu => (gapExpired_runs u hu).1⟩
    | linkWatchExpiry => exact ⟨_, rfl, live_turns fun u hu => (watchExpired_runs u hu).1⟩
    | txFrameBegin => exact ⟨_, rfl, live_turns fun u hu => closeIf_turns _ hu (.empty u)⟩
    | txFrameEnd => exact ⟨_, rfl, live_turns fun _ hu => frameSent_turns hu⟩
    | restart0TakesEffect straps =>
      exact ⟨_, rfl, live_turns fun u _ => by
        split
        · exact restartNow_turns _ _ u
        · exact .refl⟩
    | restart1TakesEffect =>
      exact ⟨_, rfl, live_turns fun u _ => by
        split
        · exact restartNow_turns _ _ u
        · exact .refl⟩
    | _ => cases hspoken

/-- A law of the part that every turn keeps, and that does not read the queue of commands, every step keeps. -/
theorem step_keeps {P : State → Prop} (hturn : ∀ s t, P s → Turn s t → P t)
    (hqueue : ∀ s rest, P s → P { s with pending := rest }) {s t : State} (hs : P s) (hstep : step s = .next t) : P t := by
  unfold step at hstep
  split at hstep
  · cases hstep
    exact hs
  · next c rest _ =>
    obtain ⟨u, hu, hturns⟩ := exec_turns c { s with pending := rest }
    cases hu.symm.trans hstep
    exact hturns.keep hturn (hqueue s rest hs)

end Sys2Proof.Proofs.EventRows
end

section
/-! PROOFS of the laws that the link and the notice unit keep (R92, R95, R97, R98, R101, R165, R167), and that no command stops
or touches the queue of commands. -/

namespace Sys2Proof.Proofs.LinkLaws

open Sys2Proof.Machine Sys2Proof.Safety Sys2Proof.Proofs.Notices Sys2Proof.Proofs.EventRows

/-! ## What the transmitter's turn and the end of an event leave -/

theorem beginNext_notices (fresh : Bool) (s : State) : (s.beginNext fresh).notices = s.notices := by
  obtain ⟨_, _, _, _, h⟩ := beginNext_frame fresh s
  rw [h]

theorem beginNext_modes (fresh : Bool) (s : State) : (s.beginNext fresh).modes = s.modes := by
  obtain ⟨_, _, _, _, h⟩ := beginNext_frame fresh s
  rw [h]

theorem beginNext_pending (fresh : Bool) (s : State) : (s.beginNext fresh).pending = s.pending := by
  obtain ⟨_, _, _, _, h⟩ := beginNext_frame fresh s
  rw [h]

/-- A request answered OK: its event ends, its reply is queued, and the transmitter has its turn. -/
theorem answer_ok (seq kind : Byte) (b : Body) (content : Motion → List Byte) :
    ∃ e frame record fresh, (okAfter b content).answer seq kind =
      State.beginNext fresh { b.s.settle e with
        link := { (b.s.settle e).link with
          seqRecord := record, replies := (b.s.settle e).link.replies ++ [frame] } } :=
  ⟨b.e.arbitrate b.s.env, _, _, _, rfl⟩

/-- A refused request: its reply is queued, and the transmitter has its turn. -/
theorem answer_refused (seq kind : Byte) {st : Status} (content : List Byte) (s : State) (hst : st ≠ .ok) :
    ∃ frame record fresh, (refuseWith st content s).answer seq kind =
      State.beginNext fresh { s with
        link := { s.link with seqRecord := record, replies := s.link.replies ++ [frame] } } := by
  have hended : (refuseWith st content s).ended = s := if_neg hst
  unfold Served.answer
  rw [hended]
  exact ⟨_, _, _, rfl⟩

/-! ## Every command answers a next state -/

theorem turn_pending {s t : State} (h : Turn s t) : t.pending = s.pending := by
  cases h with
  | aside h => exact h.pending
  | closes _ hb => exact (beginNext_pending ..).trans hb.pending
  | answers _ _ _ _ _ hb => exact (beginNext_pending ..).trans hb.pending
  | refuses seq kind content _ _ hst =>
    obtain ⟨_, _, _, h⟩ := answer_refused seq kind content s hst
    rw [h]
    exact beginNext_pending ..
  | replays => exact beginNext_pending ..
  | _ => rfl

/-- Settles O2: a row of turns answers every command, and no turn touches the queue of commands. -/
theorem everyCommandAnswersANextState : Obligations.EveryCommandAnswersANextState := by
  intro c s
  obtain ⟨t, ht, hturns⟩ := exec_turns c s
  exact ⟨t, ht, hturns.keep (P := fun u => u.pending = s.pending) (fun _ _ hs h => (turn_pending h).trans hs) rfl⟩

/-! ## The transmit queue (R165, R167) -/

/-- The law of the transmit queue, of a link. -/
def SlotsLaw (k : Link) : Prop :=
  k.replies.length ≤ 4 ∧ (k.replySending = true → k.replies ≠ []) ∧
    (k.replySending = true → ∀ f, k.attnSlot ≠ .sending f)

theorem SlotsLaw.edit {k k' : Link} (h : SlotsLaw k) (he : SlotsEdit k k') : SlotsLaw k' := by
  obtain ⟨hlen, hsome, hone⟩ := h
  cases he with
  | same hr hs ha => exact ⟨hr ▸ hlen, by rw [hr, hs]; exact hsome, by rw [hs, ha]; exact hone⟩
  | replySent hr hs ha =>
    refine ⟨?_, by simp [hs], by simp [hs]⟩
    rw [hr, List.length_tail]
    omega
  | attentionSent hr hs ha => exact ⟨hr ▸ hlen, by rw [hr, hs]; exact hsome, by simp [ha]⟩

theorem SlotsEdit.length_le {k k' : Link} (he : SlotsEdit k k') : k'.replies.length ≤ k.replies.length := by
  cases he with
  | same hr | attentionSent hr => rw [hr]
  | replySent hr => rw [hr, List.length_tail]; omega

/-- A reply that finds room joins the queue. -/
theorem SlotsLaw.queued {k k' : Link} (h : SlotsLaw k) {frame : List Byte} (hroom : k.replies.length < 4)
    (hr : k'.replies = k.replies ++ [frame]) (hs : k'.replySending = k.replySending) (ha : k'.attnSlot = k.attnSlot) :
    SlotsLaw k' := by
  refine ⟨?_, by simp [hr], by rw [hs, ha]; exact h.2.2⟩
  rw [hr, List.length_append, List.length_singleton]
  omega

/-- Attention asks for a frame in an empty slot alone. -/
theorem SlotsLaw.settle {s : State} (h : SlotsLaw s.link) (e : Event) : SlotsLaw (s.settle e).link := by
  refine ⟨h.1, h.2.1, fun hsending f => ?_⟩
  unfold State.settle State.judge
  dsimp only
  split
  · simp
  · exact h.2.2 hsending f

/-- An idle transmitter begins one frame: the attention frame with no reply in transmission, or a reply that is queued with
no attention frame in transmission. -/
theorem SlotsLaw.beginNext {s : State} (h : SlotsLaw s.link) (fresh : Bool) : SlotsLaw (s.beginNext fresh).link := by
  unfold State.beginNext
  split
  · next hidle =>
    obtain ⟨hsilent, hslot⟩ := Bool.and_eq_true_iff.mp hidle
    have hquiet : s.link.replySending = false := by simpa using hsilent
    have hfree : ∀ f, s.link.attnSlot ≠ .sending f := fun f hf => by simp [hf] at hslot
    have hattention : ∀ t : State, t.link = s.link → SlotsLaw t.beginAttention.link := fun t ht => by
      unfold State.beginAttention
      rw [ht]
      exact ⟨h.1, by simp [hquiet], by simp [hquiet]⟩
    have hreply : ∀ t : State, t.link = s.link → s.link.replies ≠ [] → SlotsLaw t.beginReply.link := fun t ht hne => by
      unfold State.beginReply
      rw [ht]
      exact ⟨h.1, fun _ => hne, fun _ => hfree⟩
    split
    · split
      · next hboth =>
        have hne : s.link.replies ≠ [] := by simpa using (Bool.and_eq_true_iff.mp hboth).2
        dsimp only
        split
        · exact hreply _ rfl hne
        · exact hattention _ rfl
      · exact hattention s rfl
    · split
      · exact h
      · next hne => exact hreply s rfl (by simpa using hne)
  · exact h

theorem turn_slots {s t : State} (h : SlotsLaw s.link) (hturn : Turn s t) : SlotsLaw t.link := by
  cases hturn with
  | resetBegins kind =>
    refine ⟨?_, by simp [State.beginReset, Link.cut], by simp [State.beginReset, Link.cut]⟩
    have hlen := h.1
    unfold State.beginReset Link.cut
    dsimp only
    split
    · rw [List.length_tail]; omega
    · exact hlen
  | defaults | restarts => exact ⟨Nat.zero_le 4, nofun, nofun⟩
  | aside ha => exact h.edit (.same ha.replies ha.replySending ha.attnSlot)
  | together | opens | counts => exact h
  | closes _ hb => exact ((h.edit hb.slots).settle _).beginNext _
  | answers seq kind content _ hroom hb =>
    obtain ⟨e, _, _, _, ht⟩ := answer_ok seq kind _ content
    have hleft := Nat.lt_of_le_of_lt (SlotsEdit.length_le hb.slots) hroom
    rw [ht]
    refine SlotsLaw.beginNext ?_ _
    exact ((h.edit hb.slots).settle e).queued hleft rfl rfl rfl
  | refuses seq kind content _ hroom hst =>
    obtain ⟨_, _, _, ht⟩ := answer_refused seq kind content s hst
    rw [ht]
    refine SlotsLaw.beginNext ?_ _
    exact h.queued hroom rfl rfl rfl
  | replays frame _ hroom =>
    refine SlotsLaw.beginNext ?_ _
    exact (h.settle (s.event.arbitrate s.env)).queued hroom rfl rfl rfl

/-- Settles O60: every turn keeps the law of the transmit queue. -/
theorem theTransmitLawIsKept : Obligations.TheTransmitLawIsKept := fun _ _ hs hstep =>
  step_keeps (P := fun s => SlotsLaw s.link) (fun _ _ h hturn => turn_slots h hturn) (fun _ _ h => h) hs hstep

/-! ## ATTN# (R101) -/

theorem settle_attention (s : State) (e : Event) : (s.settle e).notices.attn = (s.settle e).notices.attention := rfl

/-- ATTN# of a part that operates, from its notice unit. -/
theorem attentionLaw_of_operating {t : State} (hr : t.modes.inReset = none)
    (ha : t.notices.attn = t.notices.attention) : AttentionLaw t := ⟨fun _ => ha, fun h => absurd hr h⟩

theorem turn_attention {s t : State} (h : AttentionLaw s) (hturn : Turn s t) : AttentionLaw t := by
  cases hturn with
  | resetBegins kind => exact ⟨nofun, fun _ => rfl⟩
  | defaults | restarts => exact attentionLaw_of_operating rfl rfl
  | aside ha =>
    unfold AttentionLaw
    rw [ha.inReset, ha.notices]
    exact h
  | together | opens | counts => exact h
  | closes hs hb =>
    refine attentionLaw_of_operating ?_ ?_
    · exact (congrArg _ (close_modes _)).trans (hb.inReset.trans hs.1)
    · exact (beginNext_notices ..).symm ▸ settle_attention _ _
  | answers seq kind content hs _ hb =>
    refine attentionLaw_of_operating ?_ ?_
    · exact (congrArg _ (beginNext_modes ..)).trans (hb.inReset.trans hs.1)
    · exact (beginNext_notices ..).symm ▸ settle_attention _ _
  | refuses seq kind content hs _ hst =>
    obtain ⟨_, _, _, ht⟩ := answer_refused seq kind content s hst
    rw [ht]
    refine attentionLaw_of_operating ((congrArg _ (beginNext_modes ..)).trans hs.1) ?_
    rw [beginNext_notices]
    exact h.1 hs.1
  | replays frame hs =>
    refine attentionLaw_of_operating ((congrArg _ (beginNext_modes ..)).trans hs.1) ?_
    exact (beginNext_notices ..).symm ▸ settle_attention _ _

/-- Settles O59: every event but a refused request's ends with attention judged, and that one leaves the notices alone. -/
theorem theAttentionLawIsKept : Obligations.TheAttentionLawIsKept := fun _ _ hs hstep =>
  step_keeps (fun _ _ => turn_attention) (fun _ _ h => h) hs hstep

/-! ## The notices of an event taken (R92, R95, R97) -/

/-- The laws of the notice unit, of a unit. -/
structure RecordsLaw (u : NoticeUnit) : Prop where
  stack : StackLaw u
  pending : PendingLaw u
  ids : IdLaw u

/-- Pending records rewritten, their class, source, priority and id kept. -/
theorem RecordsLaw.rewritten {u : NoticeUnit} (h : RecordsLaw u) {f : Notice → Notice}
    (hcls : ∀ r, (f r).cls = r.cls) (hsource : ∀ r, (f r).source = r.source) (hpriority : ∀ r, (f r).priority = r.priority)
    (hid : ∀ r, (f r).id = r.id) : RecordsLaw { u with waiting := u.waiting.map f } := by
  obtain ⟨hstack, ⟨hlen, hdistinct, hsorted⟩, hids⟩ := h
  have hused : NoticeUnit.idsInUse { u with waiting := u.waiting.map f } = u.idsInUse := by
    simp [NoticeUnit.idsInUse, hid]
  refine ⟨hstack, ⟨by simpa using hlen, ?_, ?_⟩, ?_⟩
  · exact List.pairwise_map.mpr (hdistinct.imp fun hne => by rwa [hcls, hcls, hsource, hsource])
  · exact List.pairwise_map.mpr (hsorted.imp fun hle => by rwa [hpriority, hpriority])
  · unfold IdLaw
    rw [hused]
    exact hids

theorem placeNotice_perm (r : Notice) (l : List Notice) : (placeNotice r l).Perm (r :: l) := by
  obtain ⟨pre, post, rfl, hplace, _⟩ := placeNotice_splits r l
  rw [hplace]
  exact List.perm_middle

theorem placeNotice_sorted {l : List Notice} (h : l.Pairwise fun a b => a.priority ≤ b.priority) (r : Notice) :
    (placeNotice r l).Pairwise fun a b => a.priority ≤ b.priority := by
  obtain ⟨pre, post, rfl, hplace, hpre, hpost⟩ := placeNotice_splits r l
  rw [hplace]
  obtain ⟨hleft, hright, hcross⟩ := List.pairwise_append.mp h
  have hbehind : ∀ q ∈ post, r.priority ≤ q.priority := fun q hq => by
    cases post with
    | nil => cases hq
    | cons first rest =>
      have hfirst := le_of_lt (hpost first rest rfl)
      obtain rfl | hq := List.mem_cons.mp hq
      · exact hfirst
      · exact hfirst.trans (List.rel_of_pairwise_cons hright hq)
  refine List.pairwise_append.mpr ⟨hleft, List.pairwise_cons.mpr ⟨hbehind, hright⟩, fun a ha b hb => ?_⟩
  obtain rfl | hb := List.mem_cons.mp hb
  · exact hpre a ha
  · exact hcross a ha b hb

/-- A new record has a class and source of its own and an id that is free (R92, R95). -/
theorem RecordsLaw.created {u : NoticeUnit} (h : RecordsLaw u) (now : Time) {n : Raised}
    (hnone : ∀ q ∈ u.waiting, ¬ (q.cls = n.cls ∧ q.source = n.source)) (hroom : u.waiting.length < 32) :
    RecordsLaw { u with waiting := placeNotice (u.recordOf now n) u.waiting, nextId := idAfter u.newId } := by
  obtain ⟨hstack, ⟨hlen, hdistinct, hsorted⟩, hnodup, hzero, hnext⟩ := h
  have hperm := placeNotice_perm (u.recordOf now n) u.waiting
  have hused := idsInUse_length u
  have hdepth := hstack.1
  obtain ⟨k, hid, _, hfree⟩ := newId_first hnext (by omega)
  have hnew : u.newId ≠ 0 := hid ▸ iterate_idAfter_ne_zero hnext k
  have hids : (NoticeUnit.idsInUse
      { u with waiting := placeNotice (u.recordOf now n) u.waiting, nextId := idAfter u.newId }).Perm
      (u.newId :: u.idsInUse) := (hperm.map _).append_right _
  refine ⟨hstack, ⟨?_, ?_, placeNotice_sorted hsorted _⟩, ?_, ?_, ?_⟩
  · rw [hperm.length_eq, List.length_cons]
    omega
  · refine (hperm.pairwise_iff fun hab hba => hab ⟨hba.1.symm, hba.2.symm⟩).mpr
      (List.pairwise_cons.mpr ⟨fun q hq hsame => hnone q hq ⟨hsame.1.symm, hsame.2.symm⟩, hdistinct⟩)
  · exact hids.nodup_iff.mpr (List.nodup_cons.mpr ⟨hid ▸ hfree, hnodup⟩)
  · rw [hids.mem_iff, List.mem_cons, not_or]
    exact ⟨hnew.symm, hzero⟩
  · exact iterate_idAfter_ne_zero hnew 1

theorem RecordsLaw.take {u : NoticeUnit} (h : RecordsLaw u) (now : Time) (n : Raised) : RecordsLaw (u.take now n) := by
  unfold NoticeUnit.take
  split
  · exact h
  · split
    · refine h.rewritten ?_ ?_ ?_ ?_ <;>
      · intro r
        split <;> rfl
    · next hnone =>
      split
      · exact ⟨h.stack, h.pending, h.ids⟩
      · next hroom =>
        refine h.created now (fun q hq hsame => hnone ?_) (Nat.not_le.mp hroom)
        exact List.any_eq_true.mpr ⟨q, hq, (matchesRaised_iff q n).mpr hsame⟩

theorem RecordsLaw.takeAll {u : NoticeUnit} (h : RecordsLaw u) (now : Time) (ns : List Raised) :
    RecordsLaw (u.takeAll now ns) := by
  unfold NoticeUnit.takeAll
  generalize sortRaised ns = order
  induction order generalizing u with
  | nil => exact h
  | cons n rest ih => exact ih (h.take now n)

/-! ## The requests of the notice unit (R98, R104 to R107) -/

theorem dropId_sublist (id : NoticeId) (l : List Notice) : (dropId id l).Sublist l := by
  induction l with
  | nil => exact .refl _
  | cons r rest ih =>
    unfold dropId
    split
    · exact List.sublist_cons_self r rest
    · exact ih.cons_cons r

theorem dropId_ids_perm {id : NoticeId} {l : List Notice} (h : ∃ r ∈ l, r.id = id) :
    (l.map (·.id)).Perm (id :: (dropId id l).map (·.id)) := by
  induction l with
  | nil => obtain ⟨r, hr, _⟩ := h; cases hr
  | cons q rest ih =>
    unfold dropId
    split
    · next hq => rw [List.map_cons, hq]
    · next hq =>
      obtain ⟨r, hr, hid⟩ := h
      have hrest : r ∈ rest := (List.mem_cons.mp hr).resolve_left fun he => hq (he ▸ hid)
      exact ((ih ⟨r, hrest, hid⟩).cons _).trans (.swap ..)

/-- Records removed from the pending list and the stack. -/
theorem RecordsLaw.fewer {u : NoticeUnit} (h : RecordsLaw u) {waiting stack : List Notice}
    (hw : waiting.Sublist u.waiting) (hs : stack.Sublist u.stack) :
    RecordsLaw { u with waiting := waiting, stack := stack } := by
  obtain ⟨⟨hdepth, hstack⟩, ⟨hlen, hdistinct, hsorted⟩, hnodup, hzero, hnext⟩ := h
  have hids : (NoticeUnit.idsInUse { u with waiting := waiting, stack := stack }).Sublist u.idsInUse :=
    (hw.map _).append (hs.map _)
  exact ⟨⟨hs.length_le.trans hdepth, hstack.sublist hs⟩,
    ⟨hw.length_le.trans hlen, hdistinct.sublist hw, hsorted.sublist hw⟩,
    hnodup.sublist hids, fun h0 => hzero (hids.mem h0), hnext⟩

/-- A record that may stand on the top may stand on the whole stack. -/
theorem mayStandOn_trans {a b c : Notice} (hab : mayStandOn a b) (hbc : mayStandOn b c) : mayStandOn a c := by
  obtain hab | ⟨hab, hnest⟩ := hab
  · obtain hbc | ⟨hbc, _⟩ := hbc
    · exact .inl (hab.trans hbc)
    · exact .inl (hbc ▸ hab)
  · obtain hbc | ⟨hbc, _⟩ := hbc
    · exact .inl (hab ▸ hbc)
    · exact .inr ⟨hab.trans hbc, hnest⟩

/-- CLAIM moves the first eligible record to the top of the stack (R99, R104). -/
theorem RecordsLaw.claimed {u : NoticeUnit} (h : RecordsLaw u) {r : Notice} (hr : u.next? = some r)
    (hroom : u.stack.length < 8) : RecordsLaw (u.claim r) := by
  obtain ⟨⟨_, hstack⟩, ⟨hlen, hdistinct, hsorted⟩, hnodup, hzero, hnext⟩ := h
  have hsub := dropId_sublist r.id u.waiting
  have hheld : r ∈ u.waiting := List.mem_of_find?_eq_some hr
  obtain ⟨_, htop⟩ := (eligible_iff u r).mp (List.find?_some hr)
  have hstands : ∀ q ∈ u.stack, mayStandOn r q := fun q hq => by
    cases hs : u.stack with
    | nil => rw [hs] at hq; cases hq
    | cons top rest =>
      rw [hs] at hq hstack
      have hfirst : mayStandOn r top := htop top rest hs
      obtain rfl | hq := List.mem_cons.mp hq
      · exact hfirst
      · exact mayStandOn_trans hfirst (List.rel_of_pairwise_cons hstack hq)
  have hids : (u.claim r).idsInUse.Perm u.idsInUse :=
    List.perm_middle.trans ((dropId_ids_perm ⟨r, hheld, rfl⟩).symm.append_right (u.stack.map Notice.id))
  exact ⟨⟨Nat.succ_le_of_lt hroom, List.pairwise_cons.mpr ⟨hstands, hstack⟩⟩,
    ⟨hsub.length_le.trans hlen, hdistinct.sublist hsub, hsorted.sublist hsub⟩,
    hids.nodup_iff.mpr hnodup, hids.mem_iff.not.mpr hzero, hnext⟩

theorem RecordsLaw.edit {u w : NoticeUnit} (h : RecordsLaw u) (he : NoticesEdit u w) : RecordsLaw w := by
  cases he with
  | same => exact h
  | settings => exact ⟨h.stack, h.pending, h.ids⟩
  | claimed hr hroom => exact h.claimed hr hroom
  | closedTop hs => exact h.fewer (.refl _) (hs ▸ List.sublist_cons_self ..)
  | closed id => exact h.fewer (.refl _) (dropId_sublist id _)
  | dismissed id => exact h.fewer (dropId_sublist id _) (.refl _)

/-! ## Every turn -/

/-- The end of an event takes the notices raised in it, and sets ATTN#. -/
theorem RecordsLaw.settle {s : State} (h : RecordsLaw s.notices) (e : Event) : RecordsLaw (s.settle e).notices :=
  have htaken := h.takeAll s.time e.raised
  ⟨htaken.stack, htaken.pending, htaken.ids⟩

theorem recordsLaw_default : RecordsLaw NoticeUnit.default :=
  ⟨⟨Nat.zero_le 8, .nil⟩, ⟨Nat.zero_le 32, .nil, .nil⟩, .nil, nofun, by decide⟩

theorem turn_records {s t : State} (h : RecordsLaw s.notices) (hturn : Turn s t) : RecordsLaw t.notices := by
  cases hturn with
  | resetBegins => exact ⟨h.stack, h.pending, h.ids⟩
  | defaults => exact recordsLaw_default
  | restarts => exact ⟨recordsLaw_default.stack, recordsLaw_default.pending, recordsLaw_default.ids⟩
  | aside ha => exact ha.notices ▸ h
  | together | opens | counts => exact h
  | closes _ hb => exact (beginNext_notices ..).symm ▸ (h.edit hb.notices).settle _
  | answers _ _ _ _ _ hb => exact (beginNext_notices ..).symm ▸ (h.edit hb.notices).settle _
  | refuses seq kind content _ _ hst =>
    obtain ⟨_, _, _, ht⟩ := answer_refused seq kind content s hst
    rw [ht, beginNext_notices]
    exact h
  | replays => exact (beginNext_notices ..).symm ▸ h.settle _

/-- Settles O58: every turn keeps the laws of the records. -/
theorem theNoticesLawIsKept : Obligations.TheNoticesLawIsKept := by
  rintro s t ⟨hstack, hpending, hids⟩ hstep
  have h := step_keeps (P := fun s => RecordsLaw s.notices) (fun _ _ => turn_records) (fun _ _ h => h)
    ⟨hstack, hpending, hids⟩ hstep
  exact ⟨h.stack, h.pending, h.ids⟩

end Sys2Proof.Proofs.LinkLaws
end

section
/-! PROOFS of the family 02, what a lane makes of its results: a step completes (R48 to R50), fails (R54), or runs on, and the
events of the last result of a step (R47, R51 to R53). -/

namespace Sys2Proof.Proofs.LaneResults

open Sys2Proof.Machine Sys2Proof.Safety Sys2Proof.Proofs.LaneRequests

/-! ## The completion of a step (R48) -/

theorem act_releaseAll (b : ActIx) (moves : List Move) : ∀ e : Event,
    (e.releaseAll moves).m.act b =
      if ∃ mv ∈ moves, mv.act = b then { e.m.act b with owner := .none } else e.m.act b := by
  induction moves with
  | nil => intro e; simp [Event.releaseAll]
  | cons mv moves ih =>
    intro e
    refine (ih _).trans ?_
    by_cases hb : mv.act = b
    · subst hb
      simp
    · simp [hb, act_setAct_ne _ _ _ _ (Ne.symm hb)]

theorem releaseAll_actsAlone (moves : List Move) (e : Event) : ActsAlone e (e.releaseAll moves) :=
  ActsAlone.foldl (fun _ _ => .setAct ..) moves e

/-- Items 1 to 3 of R48: beside the actuators released and the mark set, STEP_DONE is raised where the step has REPORT. -/
structure MovesFinished (l : LaneIx) (h : Machine.Step) (e e' : Event) : Prop where
  act : ∀ b, e'.m.act b = if ∃ mv ∈ h.moves, mv.act = b then { e.m.act b with owner := .none } else e.m.act b
  mark : ∀ k, e'.m.mark k = (e.m.mark k || h.mark == some k)
  lanes : e'.m.lanes = e.m.lanes
  queue : e'.m.queue = e.m.queue
  poolFree : e'.m.poolFree = e.m.poolFree
  raised : e'.raised = e.raised ++
    if h.report then [{ cls := .stepDone, source := some l.val, detail := 0, tag := some h.tag }] else []
  started : e'.started = e.started

theorem finishMoves_finished (l : LaneIx) (h : Machine.Step) (e : Event) : MovesFinished l h e (e.finishMoves l h) := by
  have hacts := releaseAll_actsAlone h.moves e
  have hmarked : ∃ m : Motion, e.finishMoves l h = { e with
      m := m
      raised := e.raised ++
        if h.report then [{ cls := .stepDone, source := some l.val, detail := 0, tag := some h.tag }] else [] } ∧
      m.acts = (e.releaseAll h.moves).m.acts ∧ m.lanes = e.m.lanes ∧ m.queue = e.m.queue ∧
      m.poolFree = e.m.poolFree ∧ ∀ k, m.mark k = (e.m.mark k || h.mark == some k) := by
    have hmark : ∀ k, (e.releaseAll h.moves).m.mark k = e.m.mark k := fun k => congrArg (·.get k) hacts.marks
    unfold Event.finishMoves
    rw [hacts]
    cases h.mark with
    | none =>
      refine ⟨_, ?_, rfl, rfl, rfl, rfl, fun k => by simp [Motion.mark]⟩
      cases h.report <;> simp [Event.raise]
    | some j =>
      refine ⟨{ e.m with acts := (e.releaseAll h.moves).m.acts }.setMark j true, ?_, rfl, rfl, rfl, rfl, fun k => ?_⟩
      · cases h.report <;> simp [Event.raise]
      · rw [mark_setMark]
        by_cases hk : k = j
        · simp [hk]
        · simp [hk, Ne.symm hk, Motion.mark]
  obtain ⟨m, heq, hm, hlanes, hqueue, hpool, hmark⟩ := hmarked
  rw [heq]
  refine ⟨fun b => ?_, hmark, hlanes, hqueue, hpool, rfl, rfl⟩
  rw [← act_releaseAll]
  exact congrArg (·.get b) hm

/-- A lane with a cycle counted where the step `h` ends one (R49). -/
def countedLane (h : Machine.Step) (ln : Lane) : Lane :=
  let count := ln.cycleCount + (if h.cycleEnd then 1 else 0)
  { ln with
    cycleCount := count
    pausePending := ln.pausePending ||
      decide (h.cycleEnd = true ∧ ln.cycleStop ≠ 0 ∧ count.toNat % ln.cycleStop.toNat = 0) }

/-- The CYCLE notice of a step that ends a cycle at the cycle stop (R49). -/
def cycleNotices (l : LaneIx) (h : Machine.Step) (ln : Lane) : List Raised :=
  let count := ln.cycleCount + 1
  if h.cycleEnd = true ∧ ln.cycleStop ≠ 0 ∧ count.toNat % ln.cycleStop.toNat = 0 then
    [{ cls := .cycle, source := some l.val, detail := count.extractLsb' 0 8, tag := none }] else []

theorem cycleStopHit_iff (stop count : BitVec 16) :
    cycleStopHit stop count = true ↔ stop ≠ 0 ∧ count.toNat % stop.toNat = 0 := by
  simp [cycleStopHit]

theorem countCycle_eq (l : LaneIx) (h : Machine.Step) (e : Event) :
    e.countCycle l h = { laneWritten l (countedLane h (e.m.lane l)) e.m.poolFree e.m.queue e with
      raised := e.raised ++ cycleNotices l h (e.m.lane l) } := by
  unfold Event.countCycle
  cases hc : h.cycleEnd with
  | false =>
    have hcounted : countedLane h (e.m.lane l) = e.m.lane l := by simp [countedLane, hc]
    simp [hcounted, cycleNotices, hc, laneWritten]
  | true =>
    dsimp only [if_true]
    by_cases hit : cycleStopHit (e.m.lane l).cycleStop ((e.m.lane l).cycleCount + 1) = true
    · have hstop := (cycleStopHit_iff ..).mp hit
      have hcounted : countedLane h (e.m.lane l) =
          { e.m.lane l with cycleCount := (e.m.lane l).cycleCount + 1, pausePending := true } := by
        simp only [countedLane, hc, if_true, hstop, and_true, decide_true, Bool.or_true, ne_eq, not_false_eq_true]
      have hnotices : cycleNotices l h (e.m.lane l) =
          [{ cls := .cycle, source := some l.val,
             detail := ((e.m.lane l).cycleCount + 1).extractLsb' 0 8, tag := none }] :=
        if_pos ⟨hc, hstop⟩
      rw [if_pos hit, hcounted, hnotices]
      rfl
    · have hstop := (cycleStopHit_iff ..).not.mp hit
      have hcounted : countedLane h (e.m.lane l) =
          { e.m.lane l with cycleCount := (e.m.lane l).cycleCount + 1 } := by
        simp only [countedLane, hc, if_true, hstop, true_and, decide_false, Bool.or_false]
      have hnotices : cycleNotices l h (e.m.lane l) = [] := if_neg fun hh => hstop hh.2
      rw [if_neg hit, hcounted, hnotices, List.append_nil]
      rfl

/-- Item 5 of R48: the step goes back to the pool, or to the tail of its lane (R50). -/
theorem retire_eq {l : LaneIx} {h : Machine.Step} {rest : List Machine.Step} {e : Event}
    (hs : (e.m.lane l).steps = h :: rest) :
    e.retire l = laneWritten l
      { e.m.lane l with steps := rest ++ if h.recirculate then [h.again] else [] }
      (e.m.poolFree + if h.recirculate then 0 else 1) e.m.queue e := by
  unfold Event.retire
  rw [hs]
  cases hr : h.recirculate with
  | true => simp [hr, laneWritten, Event.setLane, Motion.setLane]
  | false => simpa [hr] using keepSteps_eq (n := 1) (by rw [hs]; rfl)

/-- A lane that goes on after a completed step (R48, item 6). -/
def goneOn (mode : Mode) (ln : Lane) : Lane :=
  if ln.pausePending then { ln with state := .paused, pausePending := false }
  else if ln.steps = [] then { ln with state := .empty }
  else evaluatedIn mode ln

/-- The entry with which a lane that goes on joins the start queue. -/
def goneOnEntry (mode : Mode) (l : LaneIx) (ln : Lane) : List QEntry :=
  if ln.pausePending then [] else entryOf mode l ln

/-- The notice of a lane that goes on and is left EMPTY with its empty notice on (R66). -/
def emptyNotices (l : LaneIx) (ln : Lane) : List Raised :=
  if ln.pausePending = false ∧ ln.steps = [] ∧ ln.emptyNotice = true then
    [{ cls := .laneEmpty, source := some l.val, detail := 0, tag := none }] else []

theorem goOn_eq (v : Env) (l : LaneIx) (e : Event) :
    e.goOn v l = { laneWritten l (goneOn v.mode (e.m.lane l)) e.m.poolFree
        (e.m.queue ++ goneOnEntry v.mode l (e.m.lane l)) e with
      raised := e.raised ++ emptyNotices l (e.m.lane l) } := by
  unfold Event.goOn goneOn goneOnEntry emptyNotices
  dsimp only
  cases hp : (e.m.lane l).pausePending with
  | true => simp [laneWritten, Event.setLane, Motion.setLane]
  | false =>
    cases hs : (e.m.lane l).steps with
    | nil => cases hn : (e.m.lane l).emptyNotice <;>
        simp [laneWritten, Event.setLane, Event.raise, Motion.setLane, entryOf, hs]
    | cons g rest => simp [evaluate_eq v l e (.inr (by simp [hs])), laneWritten, Motion.setLane]

/-- An event with one lane written and notices raised besides. -/
def laneRaised (l : LaneIx) (x : Lane) (free : Nat) (queue : List QEntry) (notes : List Raised) (e : Event) : Event :=
  { laneWritten l x free queue e with raised := e.raised ++ notes }

section

variable (l : LaneIx) {x : Lane} (free : Nat) (queue : List QEntry) (notes : List Raised) (e : Event)

theorem lane_laneRaised : (laneRaised l x free queue notes e).m.lane l = x := lane_laneWritten ..

theorem retire_laneRaised {h : Machine.Step} {rest : List Machine.Step} (hs : x.steps = h :: rest) :
    (laneRaised l x free queue notes e).retire l =
      laneRaised l { x with steps := rest ++ if h.recirculate then [h.again] else [] }
        (free + if h.recirculate then 0 else 1) queue notes e := by
  rw [retire_eq (by rw [lane_laneRaised]; exact hs), lane_laneRaised]
  simp [laneRaised, laneWritten, Motion.setLane]

theorem goOn_laneRaised (v : Env) :
    (laneRaised l x free queue notes e).goOn v l =
      laneRaised l (goneOn v.mode x) free (queue ++ goneOnEntry v.mode l x) (notes ++ emptyNotices l x) e := by
  rw [goOn_eq, lane_laneRaised]
  simp [laneRaised, laneWritten, Motion.setLane]

end

/-- What the completion of a step makes of an event (R48 to R50). -/
structure Completes (v : Env) (l : LaneIx) (h : Machine.Step) (rest : List Machine.Step) (e e' : Event) : Prop where
  act : ∀ b, e'.m.act b = if ∃ mv ∈ h.moves, mv.act = b then { e.m.act b with owner := .none } else e.m.act b
  lane : e'.m.lane l = completedLane v.mode h rest (e.m.lane l)
  others : ∀ j, j ≠ l → e'.m.lane j = e.m.lane j
  queue : e'.m.queue = e.m.queue ++
    if (completedLane v.mode h rest (e.m.lane l)).state = .queued then
      headEntry l (completedLane v.mode h rest (e.m.lane l)) else []
  mark : ∀ k, e'.m.mark k = (e.m.mark k || h.mark == some k)
  poolFree : e'.m.poolFree = e.m.poolFree + if h.recirculate then 0 else 1
  raised : e'.raised = e.raised ++ completionNotices v.mode l h rest (e.m.lane l)
  started : e'.started = e.started

/-- A head joins the queue where its evaluation leaves its lane QUEUED. -/
theorem entryOf_eq_headEntry (mode : Mode) (l : LaneIx) {ln : Lane} (hs : ln.steps ≠ []) :
    entryOf mode l ln =
      if (evaluatedIn mode ln).state = .queued then headEntry l (evaluatedIn mode ln) else [] := by
  unfold entryOf evaluatedIn evaluatedLane
  cases h : ln.steps with
  | nil => exact absurd h hs
  | cons g rest =>
    by_cases hm : mode = .run
    · by_cases hj : joinsAtOnce g = true <;> simp [hm, hj, queuedLane, headEntry, h]
    · simp [hm, heldLane]

theorem goneOnEntry_eq (mode : Mode) (l : LaneIx) (ln : Lane) :
    goneOnEntry mode l ln = if (goneOn mode ln).state = .queued then headEntry l (goneOn mode ln) else [] := by
  unfold goneOnEntry goneOn
  cases ln.pausePending with
  | true => simp
  | false =>
    by_cases hs : ln.steps = []
    · simp [hs, entryOf]
    · simpa [hs] using entryOf_eq_headEntry mode l hs

/-- The cycle stop is reached by the cycle that the step `h` ends (R49). -/
def CycleStops (h : Machine.Step) (ln : Lane) : Prop :=
  h.cycleEnd = true ∧ ln.cycleStop ≠ 0 ∧
    (ln.cycleCount + if h.cycleEnd then 1 else 0).toNat % ln.cycleStop.toNat = 0

theorem countedLane_pausePending (h : Machine.Step) (ln : Lane) :
    (countedLane h ln).pausePending = true ↔ ln.pausePending = true ∨ CycleStops h ln := by
  simp only [countedLane, Bool.or_eq_true, decide_eq_true_eq]
  rfl

/-- The lane that goes on after a completed step is the `completedLane` of the spec. -/
theorem goneOn_counted (mode : Mode) (h : Machine.Step) (rest : List Machine.Step) (ln : Lane) :
    goneOn mode { countedLane h ln with steps := rest ++ if h.recirculate then [h.again] else [] } =
      completedLane mode h rest ln := by
  by_cases hp : ln.pausePending = true ∨ CycleStops h ln
  · have hpause := (countedLane_pausePending h ln).mpr hp
    exact (if_pos hpause).trans (if_pos hp).symm
  · have hpause := Bool.eq_false_of_not_eq_true ((countedLane_pausePending h ln).not.mpr hp)
    have hlane : { countedLane h ln with steps := rest ++ if h.recirculate then [h.again] else [] } =
        { ln with
          cycleCount := ln.cycleCount + if h.cycleEnd then 1 else 0
          steps := rest ++ if h.recirculate then [h.again] else [], pausePending := false } := by
      rw [← hpause]
      rfl
    rw [hlane]
    exact (if_neg Bool.false_ne_true).trans (if_neg hp).symm

theorem evaluatedIn_state {mode : Mode} {ln : Lane} (hs : ln.steps ≠ []) :
    (evaluatedIn mode ln).state = .waiting ∨ (evaluatedIn mode ln).state = .queued := by
  unfold evaluatedIn evaluatedLane
  cases h : ln.steps with
  | nil => exact absurd h hs
  | cons g rest =>
    by_cases hm : mode = .run
    · by_cases hj : joinsAtOnce g = true <;> simp [hm, hj, queuedLane, h]
    · simp [hm, heldLane]

theorem evaluatedIn_not_empty {mode : Mode} {ln : Lane} (hs : ln.steps ≠ []) : (evaluatedIn mode ln).state ≠ .empty := by
  obtain h | h := evaluatedIn_state (mode := mode) hs <;> simp [h]

/-- The notices of the completion of a step, block by block. -/
theorem completionNotices_eq (mode : Mode) (l : LaneIx) (h : Machine.Step) (rest : List Machine.Step) (ln : Lane) :
    completionNotices mode l h rest ln =
      (if h.report then [{ cls := .stepDone, source := some l.val, detail := 0, tag := some h.tag }] else []) ++
        cycleNotices l h ln ++
        emptyNotices l { countedLane h ln with steps := rest ++ if h.recirculate then [h.again] else [] } := by
  unfold completionNotices
  rw [← goneOn_counted]
  generalize hx : { countedLane h ln with steps := rest ++ if h.recirculate then [h.again] else [] } = x
  have hnotice : ln.emptyNotice = x.emptyNotice := by rw [← hx]; rfl
  have hempty : (goneOn mode x).state = .empty ↔ x.pausePending = false ∧ x.steps = [] := by
    unfold goneOn
    cases x.pausePending with
    | true => simp
    | false =>
      by_cases hs : x.steps = []
      · simp [hs]
      · simpa [hs] using evaluatedIn_not_empty hs
  unfold emptyNotices
  simp only [hempty, hnotice, and_assoc]
  rfl

theorem completeStep_completes {l : LaneIx} {h : Machine.Step} {rest : List Machine.Step} {e : Event}
    (hs : (e.m.lane l).steps = h :: rest) (v : Env) : Completes v l h rest e (e.completeStep v l) := by
  have heq : e.completeStep v l = (((e.finishMoves l h).countCycle l h).retire l).goOn v l := by
    unfold Event.completeStep
    rw [hs]
  have hfinished := finishMoves_finished l h e
  generalize e.finishMoves l h = f at heq hfinished
  have hlane : f.m.lane l = e.m.lane l := congrArg (·.get l) hfinished.lanes
  have hsteps : (countedLane h (e.m.lane l)).steps = h :: rest := hs
  generalize hx : { countedLane h (e.m.lane l) with
    steps := rest ++ if h.recirculate then [h.again] else [] } = x
  have hgone : goneOn v.mode x = completedLane v.mode h rest (e.m.lane l) := by rw [← hx, goneOn_counted]
  have hwritten : e.completeStep v l = laneRaised l (goneOn v.mode x)
      (f.m.poolFree + if h.recirculate then 0 else 1) (f.m.queue ++ goneOnEntry v.mode l x)
      (cycleNotices l h (e.m.lane l) ++ emptyNotices l x) f := by
    have hcount : f.countCycle l h = laneRaised l (countedLane h (e.m.lane l)) f.m.poolFree f.m.queue
        (cycleNotices l h (e.m.lane l)) f := by rw [countCycle_eq, hlane]; rfl
    rw [heq, hcount, retire_laneRaised _ _ _ _ _ hsteps, hx, goOn_laneRaised]
  rw [hwritten]
  refine { act := hfinished.act, lane := ?_, others := fun j hj => ?_, queue := ?_, mark := hfinished.mark,
           poolFree := ?_, raised := ?_, started := hfinished.started }
  · exact (lane_setLane_self ..).trans hgone
  · exact (lane_setLane_ne _ _ _ _ hj).trans (congrArg (·.get j) hfinished.lanes)
  · rw [← hgone]
    show f.m.queue ++ goneOnEntry v.mode l x = _
    rw [hfinished.queue, goneOnEntry_eq]
  · show f.m.poolFree + _ = _
    rw [hfinished.poolFree]
  · show f.raised ++ _ = _
    rw [hfinished.raised, completionNotices_eq, hx]
    simp only [List.append_assoc]

/-! ## The failure of a step (R51 to R54) -/

/-- The LANE_FAULT notice of a step that fails (R54). -/
def failNotice (l : LaneIx) (h : Machine.Step) : Raised :=
  { cls := .laneFault, source := some l.val, detail := LaneFault.moveFailed.code, tag := some h.tag }

/-- A step with a FAILED move runs on under FINISH_OTHERS while a move is PENDING (R53). -/
abbrev RunsOn (policy : FaultPolicy) (h : Machine.Step) : Prop :=
  policy = .finishOthers ∧ ∃ p ∈ h.results, p.2 = .pending

/-- What a failed move of the step `h` makes of an event (R51 to R54): the step runs on, or it fails with its PENDING moves
stopped and its actuators given up. -/
structure FailureTaken (v : Env) (l : LaneIx) (h : Machine.Step) (rest : List Machine.Step) (e e' : Event) : Prop where
  act : ∀ b, e'.m.act b =
    if RunsOn (e.m.lane l).policy h then e.m.act b else abortedAct (v.view b) l h b (e.m.act b)
  lane : e'.m.lane l = laneWithFailure h rest (e.m.lane l)
  others : ∀ j, j ≠ l → e'.m.lane j = e.m.lane j
  queue : e'.m.queue = e.m.queue
  marks : e'.m.marks = e.m.marks
  poolFree : e'.m.poolFree = e.m.poolFree
  raised : e'.raised = e.raised ++ if RunsOn (e.m.lane l).policy h then [] else [failNotice l h]
  started : e'.started = e.started

section

variable {l : LaneIx} {h : Machine.Step} {rest : List Machine.Step} {e : Event}

theorem failStep_eq (hs : (e.m.lane l).steps = h :: rest) :
    e.failStep l = ((e.releaseOwned l h.moves).setLane l (failedLane h rest (e.m.lane l))).raise (failNotice l h) := by
  have hlane := (releaseOwned_actsAlone l h.moves e).lane l
  unfold Event.failStep
  rw [hs]
  dsimp only
  rw [faultLane_eq (by rw [hlane]; exact hs), hlane]
  rfl

/-- With nothing PENDING the step fails (R54). -/
theorem failStep_taken (hs : (e.m.lane l).steps = h :: rest) (hp : ¬ ∃ p ∈ h.results, p.2 = .pending) (v : Env) :
    FailureTaken v l h rest e (e.failStep l) := by
  have hruns : ¬ RunsOn (e.m.lane l).policy h := fun hr => hp hr.2
  have hpending : ∀ b, (b, MoveResult.pending) ∉ h.results := fun b hb => hp ⟨_, hb, rfl⟩
  have halone := releaseOwned_actsAlone l h.moves e
  have hframe := failStep_frame l e
  have heq := failStep_eq hs
  refine { act := fun b => ?_, lane := ?_, others := hframe.lanes, queue := ?_, marks := ?_, poolFree := ?_,
           raised := ?_, started := hframe.started } <;> rw [heq]
  · rw [if_neg hruns, m_raise, m_setLane, act_setLane, act_releaseOwned]
    simp only [abortedAct, hpending b, if_false]
  · rw [m_raise, m_setLane, lane_setLane_self]
    exact (if_neg hp).symm
  · rw [m_raise, m_setLane, queue_setLane, halone.queue]
  · rw [m_raise, m_setLane, marks_setLane, halone.marks]
  · rw [m_raise, m_setLane, poolFree_setLane, halone.poolFree]
  · rw [raised_raise, raised_setLane, halone.raised, if_neg hruns]

/-- STOP_ALL stops the PENDING moves and fails the step (R52). -/
theorem stopAll_taken (hs : (e.m.lane l).steps = h :: rest) (hp : ∃ p ∈ h.results, p.2 = .pending)
    (hpolicy : (e.m.lane l).policy = .stopAll) (v : Env) :
    FailureTaken v l h rest e ((e.stopPending v l).failStep l) := by
  have hruns : ¬ RunsOn (e.m.lane l).policy h := fun hr => FaultPolicy.noConfusion (hpolicy.symm.trans hr.1)
  have hstop := stopPending_eq hs v
  have hstopped := stopActs_actsAlone v h.results e
  have hlane : (e.stopPending v l).m.lane l = { e.m.lane l with steps := allStopped h :: rest } := by
    rw [hstop]
    exact lane_setLane_self ..
  have hrelease := releaseOwned_actsAlone l h.moves (e.stopPending v l)
  have hframe := (stopPending_frame v l e).trans (failStep_frame l _)
  have heq : (e.stopPending v l).failStep l =
      (((e.stopPending v l).releaseOwned l h.moves).setLane l
        (failedLane (allStopped h) rest (e.m.lane l))).raise (failNotice l h) := by
    rw [failStep_eq (h := allStopped h) (rest := rest) (by rw [hlane]), hlane]
    rfl
  refine { act := fun b => ?_, lane := ?_, others := hframe.lanes, queue := ?_, marks := ?_, poolFree := ?_,
           raised := ?_, started := hframe.started } <;> rw [heq]
  · rw [if_neg hruns, m_raise, m_setLane, act_setLane, act_releaseOwned, hstop, m_setLane, act_setLane, act_stopActs]
    rfl
  · rw [m_raise, m_setLane, lane_setLane_self]
    simp [laneWithFailure, hp, hpolicy]
  · rw [m_raise, m_setLane, queue_setLane, hrelease.queue, hstop, m_setLane, queue_setLane, hstopped.queue]
  · rw [m_raise, m_setLane, marks_setLane, hrelease.marks, hstop, m_setLane, marks_setLane, hstopped.marks]
  · rw [m_raise, m_setLane, poolFree_setLane, hrelease.poolFree, hstop, m_setLane, poolFree_setLane,
      hstopped.poolFree]
  · rw [raised_raise, raised_setLane, hrelease.raised, hstop, raised_setLane, hstopped.raised, if_neg hruns]

/-! ## A RUNNING lane acts on its results (R47) -/

theorem anyFailed_iff (h : Machine.Step) : h.anyFailed = true ↔ ∃ p ∈ h.results, p.2 = .failed := by
  simp [Step.anyFailed]

theorem anyPending_iff (h : Machine.Step) : h.anyPending = true ↔ ∃ p ∈ h.results, p.2 = .pending := by
  simp [Step.anyPending]

theorem allDone_iff (h : Machine.Step) : h.allDone = true ↔ ∀ p ∈ h.results, p.2 = .done := by
  simp [Step.allDone]

theorem actOnResults_of_not_running (hr : (e.m.lane l).state ≠ .running) (v : Env) : e.actOnResults v l = e := by
  simp [Event.actOnResults, hr]

/-- A step with a FAILED move is taken as `FailureTaken` says. -/
theorem actOnResults_failed (hr : (e.m.lane l).state = .running) (hs : (e.m.lane l).steps = h :: rest)
    (hf : ∃ p ∈ h.results, p.2 = .failed) (v : Env) : FailureTaken v l h rest e (e.actOnResults v l) := by
  have hfailed := (anyFailed_iff h).mpr hf
  by_cases hp : ∃ p ∈ h.results, p.2 = .pending
  · have hpending := (anyPending_iff h).mpr hp
    cases hpolicy : (e.m.lane l).policy with
    | stopAll =>
      have heq : e.actOnResults v l = (e.stopPending v l).failStep l := by
        simp [Event.actOnResults, hr, hs, hfailed, hpending, hpolicy]
      rw [heq]
      exact stopAll_taken hs hp hpolicy v
    | finishOthers =>
      have heq : e.actOnResults v l = e := by simp [Event.actOnResults, hr, hs, hfailed, hpending, hpolicy]
      have hruns : RunsOn (e.m.lane l).policy h := ⟨hpolicy, hp⟩
      have hlane : e.m.lane l = laneWithFailure h rest (e.m.lane l) := by
        unfold laneWithFailure
        rw [if_pos hp]
        split
        · rw [← hs]
        · next hstop => exact FaultPolicy.noConfusion (hpolicy.symm.trans hstop)
      rw [heq]
      exact { act := fun b => (if_pos hruns).symm, lane := hlane, others := fun _ _ => rfl, queue := rfl, marks := rfl,
              poolFree := rfl, raised := by rw [if_pos hruns, List.append_nil], started := rfl }
  · have heq : e.actOnResults v l = e.failStep l := by
      have hpending := (anyPending_iff h).not.mpr hp
      simp [Event.actOnResults, hr, hs, hfailed, hpending]
    rw [heq]
    exact failStep_taken hs hp v

/-- A step whose moves are all DONE completes. -/
theorem actOnResults_done (hr : (e.m.lane l).state = .running) (hs : (e.m.lane l).steps = h :: rest)
    (hd : ∀ p ∈ h.results, p.2 = .done) (v : Env) : Completes v l h rest e (e.actOnResults v l) := by
  have hf : ¬ h.anyFailed = true := by
    rw [anyFailed_iff]
    rintro ⟨p, hp, hfailed⟩
    simp [hd p hp] at hfailed
  have heq : e.actOnResults v l = e.completeStep v l := by
    simp [Event.actOnResults, hr, hs, hf, (allDone_iff h).mpr hd]
  rw [heq]
  exact completeStep_completes hs v

/-- A step without a FAILED move that is not DONE runs on. -/
theorem actOnResults_runs_on (hr : (e.m.lane l).state = .running) (hs : (e.m.lane l).steps = h :: rest)
    (hf : ∀ p ∈ h.results, p.2 ≠ .failed) (hd : ∃ p ∈ h.results, p.2 ≠ .done) (v : Env) : e.actOnResults v l = e := by
  have hnotFailed : ¬ h.anyFailed = true := by
    rw [anyFailed_iff]
    rintro ⟨p, hp, hfailed⟩
    exact hf p hp hfailed
  have hnotDone : ¬ h.allDone = true := by
    rw [allDone_iff]
    obtain ⟨p, hp, hne⟩ := hd
    exact fun hall => hne (hall p hp)
  simp [Event.actOnResults, hr, hs, hnotFailed, hnotDone]

end

end Sys2Proof.Proofs.LaneResults
end

section
/-! PROOFS of the families 01 and 02, the expiries of an actuator's timers (R13 to R19) and what a lane makes of them (R47 to
R54). -/

namespace Sys2Proof.Proofs.ActuatorExpiries

open Sys2Proof.Machine Sys2Proof.Safety Sys2Proof.Proofs.LaneRequests Sys2Proof.Proofs.LaneResults

/-! ## An expiry that is due -/

section

variable {s : State} {a : ActIx}

theorem exec_gapTimerExpiry (hs : Operating s) (h : (s.motion.act a).gapTimer = some 0) :
    exec (.gapTimerExpiry a) s = .next (s.actEvent a Actuator.gapExpired) := by
  show answered (s.live (State.gapExpiry a)) = _
  rw [live_operating _ hs]
  simp [State.gapExpiry, h, Timer.due, answered]

theorem exec_travelTimerExpiry (hs : Operating s) (h : (s.motion.act a).travelTimer = some 0) :
    exec (.travelTimerExpiry a) s = .next (s.actEvent a Actuator.travelExpired) := by
  show answered (s.live (State.travelExpiry a)) = _
  rw [live_operating _ hs]
  simp [State.travelExpiry, h, Timer.due, answered]

theorem exec_settleTimerExpiry (hs : Operating s) (h : (s.motion.act a).settleTimer = some 0) :
    exec (.settleTimerExpiry a) s = .next (s.actEvent a Actuator.settleExpired) := by
  show answered (s.live (State.settleExpiry a)) = _
  rw [live_operating _ hs]
  simp [State.settleExpiry, h, Timer.due, answered]

theorem exec_pulseTimerExpiry {e : End} (hs : Operating s) (h : (s.motion.act a).pulse = some { coil := e, left := 0 }) :
    exec (.pulseTimerExpiry a) s = .next (s.actEvent a fun _ x => x.pulseExpired) := by
  show answered (s.live (State.pulseExpiry a)) = _
  rw [live_operating _ hs]
  simp [State.pulseExpiry, Actuator.pulseDue, h, answered]

end

/-! ## What an expiry makes of its actuator -/

section

variable {v : View} {x : Actuator} {e : End}

theorem gapExpired_in_gap (hst : x.state = .gap) (ht : x.target = some e) :
    x.gapExpired v = ({ x with gapTimer := none } : Actuator).enterTravel v e := by
  simp [Actuator.gapExpired, hst, ht]

theorem travelExpired_timeout (hst : x.state = .travel) (ht : x.target = some e) (hs : x.cfg.sensing.has e = true) :
    x.travelExpired v = x.faultWith v .timeout := by
  simp [Actuator.travelExpired, hst, ht, hs]

theorem travelExpired_stuck (hst : x.state = .travel) (ht : x.target = some e) (hs : x.cfg.sensing.has e = false)
    (hd : sensed v e.opposite x) : x.travelExpired v = x.faultWith v .stuck := by
  simp [Actuator.travelExpired, hst, ht, hs, (senses_iff ..).mpr hd]

theorem travelExpired_arrives (hst : x.state = .travel) (ht : x.target = some e) (hs : x.cfg.sensing.has e = false)
    (hd : ¬ sensed v e.opposite x) : x.travelExpired v = x.arrive v e false := by
  simp [Actuator.travelExpired, hst, ht, hs, (senses_iff ..).not.mpr hd]

theorem travelExpired_in_settle (hst : x.state = .settle) :
    x.travelExpired v = ({ x with travelTimer := none } : Actuator).silent := by
  simp [Actuator.travelExpired, hst]

theorem settleExpired_in_settle (hst : x.state = .settle) (ht : x.target = some e) :
    x.settleExpired v = x.arrive v e true := by
  simp [Actuator.settleExpired, hst, ht]

theorem pulseExpired_eq {n : Nat} (h : x.pulse = some { coil := e, left := n }) :
    x.pulseExpired = ({ x with
      pulse := none
      lineA := if e = .x then false else x.lineA
      lineB := if e = .r then false else x.lineB } : Actuator).silent := by
  unfold Actuator.pulseExpired Actuator.cutPulse
  rw [h]
  cases e <;> simp [Actuator.setCoil]

/-- The owner an arrival leaves (R20). -/
theorem arrive_owner (sup : Bool) : (x.arrive v e sup).act.owner = ownerKept x.owner := by
  unfold Actuator.arrive
  dsimp only
  rw [finish_eq]
  rfl

end

/-- An actuator's event that reports nothing writes its actuator and ends. -/
theorem yields_quiet {c : Instr} {s : State} {a : ActIx} {f : View → Actuator → ActOut} {x : Actuator}
    (h : exec c s = .next (s.actEvent a f)) (hf : f (s.env.view a) (s.motion.act a) = x.silent) :
    Yields c s { s with motion := s.motion.setAct a x } [] := by
  have hy := Yields.of_actEvent a f h
  rw [act_quiet s.env a f s.event x hf] at hy
  exact hy

/-- Settles O12: GAP ends in TRAVEL, in SETTLE, at rest or in a fault, as `enterTravel` branches. -/
theorem gapExpiryEntersTravel : Obligations.GapExpiryEntersTravel := by
  intro s a e hs htimer hst ht hd
  have hx := exec_gapTimerExpiry hs htimer
  have hmanaged : (s.motion.act a).managed = true := by
    unfold Actuator.managed
    cases hk : (s.motion.act a).cfg.kind <;> simp_all [Kind.double, Kind.managed]
  have henter : (s.motion.act a).gapExpired (s.env.view a) =
      if (travelling s.time e (s.motion.act a)).inConflict (s.env.view a) then
        (travelling s.time e (s.motion.act a)).faultWith (s.env.view a) .conflict
      else if (travelling s.time e (s.motion.act a)).senses (s.env.view a) e then
        (travelling s.time e (s.motion.act a)).enterSettle (s.env.view a) e
      else (travelling s.time e (s.motion.act a)).silent := by
    rw [gapExpired_in_gap hst ht]
    exact enterTravel_eq (s.env.view a) e { s.motion.act a with gapTimer := none } hmanaged
  have hconflict : (travelling s.time e (s.motion.act a)).inConflict (s.env.view a) = true ↔
      conflicting (s.env.view a) (s.motion.act a) := inConflict_iff ..
  have hsenses : (travelling s.time e (s.motion.act a)).senses (s.env.view a) e = true ↔
      sensed (s.env.view a) e (s.motion.act a) := senses_iff ..
  refine ⟨fun hc hn => ?_, fun hc hn hsettle => ?_, fun hc hn hsettle => ?_, fun hc => ?_⟩
  · rw [if_neg (hconflict.not.mpr hc), if_neg (hsenses.not.mpr hn)] at henter
    exact yields_quiet hx henter
  · have hlong : (travelling s.time e (s.motion.act a)).cfg.settleTime ≠ 0 := hsettle
    rw [if_neg (hconflict.not.mpr hc), if_pos (hsenses.mpr hn),
      enterSettle_eq _ _ (travelling s.time e (s.motion.act a)) hc, if_neg hlong] at henter
    exact yields_quiet hx henter
  · have hshort : (travelling s.time e (s.motion.act a)).cfg.settleTime = 0 := hsettle
    rw [if_neg (hconflict.not.mpr hc), if_pos (hsenses.mpr hn),
      enterSettle_eq _ _ (travelling s.time e (s.motion.act a)) hc, if_pos hshort] at henter
    obtain ⟨hstate, hposition, hsupervised, htarget, hentry, htimers, hcoils, hcfg⟩ :=
      act_arrives s.env a Actuator.gapExpired s.event _ e true henter
    exact ⟨_, _, Yields.of_actEvent a _ hx, rfl, hstate, hposition, hsupervised, htarget, hentry, htimers, hcoils, hcfg⟩
  · rw [if_pos (hconflict.mpr hc)] at henter
    obtain ⟨hfaulted, hnotice⟩ := act_faults s.env a Actuator.gapExpired s.event _ .conflict henter
    exact ⟨_, _, Yields.of_actEvent a _ hx, rfl, hnotice, hfaulted⟩

/-- Settles O13: the cases of `travelExpired`. -/
theorem travelExpiryFaultsOrArrives : Obligations.TravelExpiryFaultsOrArrives := by
  intro s a e hs htimer ht
  have hx := exec_travelTimerExpiry hs htimer
  refine ⟨fun hst hsense => ?_, fun hst hsense hd => ?_, fun hst hsense hd => ?_, fun hst => ?_⟩
  · obtain ⟨hfaulted, hnotice⟩ := act_faults s.env a _ s.event _ .timeout (travelExpired_timeout hst ht hsense)
    exact ⟨_, _, Yields.of_actEvent a _ hx, rfl, hnotice, hfaulted⟩
  · obtain ⟨hfaulted, hnotice⟩ := act_faults s.env a _ s.event _ .stuck (travelExpired_stuck hst ht hsense hd)
    exact ⟨_, _, Yields.of_actEvent a _ hx, rfl, hnotice, hfaulted⟩
  · exact ⟨_, _, Yields.of_actEvent a _ hx, rfl,
      act_arrives s.env a _ s.event _ e false (travelExpired_arrives hst ht hsense hd)⟩
  · exact yields_quiet hx (travelExpired_in_settle hst)

/-- Settles O14: a settle expiry arrives, and its report goes to a jog or a safe move alone; a pulse expiry is quiet. -/
theorem settleAndPulseExpiries : Obligations.SettleAndPulseExpiries := by
  refine ⟨fun s a e hs htimer hst ht => ?_, fun s a e hs hp => ?_⟩
  · have hx := exec_settleTimerExpiry hs htimer
    have hf : Actuator.settleExpired (s.env.view a) (s.event.m.act a) = (s.motion.act a).arrive (s.env.view a) e true :=
      settleExpired_in_settle hst ht
    obtain ⟨harrived, hreport⟩ := arrive_spec (s.env.view a) e true (s.motion.act a)
    have hunowned : (s.motion.act a).owner = .jog ∨ (s.motion.act a).owner = .safe →
        s.event.act s.env a Actuator.settleExpired =
          { m := s.motion.setAct a ((s.motion.act a).arrive (s.env.view a) e true).act
            raised := ownNotices a ((s.motion.act a).arrive (s.env.view a) e true), started := [] } := fun ho => by
      rw [act_alone s.env a _ s.event fun l hl => ?_, hf]
      · rfl
      · rw [hf, hreport] at hl
        obtain ho | ho := ho <;> simp [ho, Report.lane?] at hl
    refine ⟨_, _, Yields.of_actEvent a _ hx, rfl, act_arrives s.env a _ s.event _ e true hf, fun b hb ho => ?_,
      fun ho => ?_, fun ho => ?_⟩
    · rw [hunowned ho]
      exact act_setAct_ne _ _ _ _ hb
    · rw [hunowned (.inl ho)]
      refine ⟨?_, rfl, ?_⟩
      · show ((s.motion.setAct a _).act a).owner = _
        rw [act_setAct_self, arrive_owner, ho]
        rfl
      · simp only [ownNotices, hreport, ho, harrived.position]
        cases e <;> rfl
    · rw [hunowned (.inr ho)]
      refine ⟨?_, rfl, ?_⟩
      · show ((s.motion.setAct a _).act a).owner = _
        rw [act_setAct_self, arrive_owner, ho]
        rfl
      · simp only [ownNotices, hreport, ho]
  · exact yields_quiet (exec_pulseTimerExpiry hs hp) (pulseExpired_eq hp)

end Sys2Proof.Proofs.ActuatorExpiries
end

section
/-! PROOFS of the family 02, the last result of a step (R47 to R54): a report of an actuator, recorded by a RUNNING lane and
acted on in the same event. -/

namespace Sys2Proof.Proofs.StepResults

open Sys2Proof.Machine Sys2Proof.Safety Sys2Proof.Proofs.LaneRequests Sys2Proof.Proofs.LaneResults
open Sys2Proof.Proofs.ActuatorExpiries

/-! ## A report taken by a RUNNING lane -/

/-- An event in which actuator `a` is left as `x` and the RUNNING lane `l` has recorded its result in the step `h` at its
head, with the notices raised. -/
def reported (l : LaneIx) (a : ActIx) (x : Actuator) (h : Machine.Step) (rest : List Machine.Step) (notes : List Raised)
    (e : Event) : Event :=
  { m := (e.m.setAct a x).setLane l { e.m.lane l with steps := h :: rest }, raised := e.raised ++ notes,
    started := e.started }

section

variable {l : LaneIx} {a : ActIx} {x : Actuator} {h : Machine.Step} {rest : List Machine.Step} {e : Event}

theorem lane_reported (notes : List Raised) :
    (reported l a x h rest notes e).m.lane l = { e.m.lane l with steps := h :: rest } := lane_setLane_self ..

theorem lane_reported_ne {j : LaneIx} (hj : j ≠ l) (notes : List Raised) :
    (reported l a x h rest notes e).m.lane j = e.m.lane j := lane_setLane_ne _ _ _ _ hj

theorem act_reported_self (notes : List Raised) : (reported l a x h rest notes e).m.act a = x := act_setAct_self ..

theorem act_reported_ne {b : ActIx} (hb : b ≠ a) (notes : List Raised) :
    (reported l a x h rest notes e).m.act b = e.m.act b := act_setAct_ne _ _ _ _ hb

theorem record_failed (a : ActIx) (h : Machine.Step) : Step.record a .failed h = failedAt a h := by
  unfold Step.record failedAt
  cases h.firstFailed <;> rfl

theorem takeReport_done (hr : (e.m.lane l).state = .running) (hs : (e.m.lane l).steps = h :: rest) :
    (e.setAct a x).takeReport a (.done (.lane l)) = reported l a x (doneAt a h) rest [] e := by
  have hr' : ((e.setAct a x).m.lane l).state = .running := hr
  have hmap : ((e.setAct a x).m.lane l).mapHead (Step.record a .done) =
      { e.m.lane l with steps := doneAt a h :: rest } := mapHead_cons _ _ _ _ hs
  simp only [Event.takeReport, Event.record, hr', beq_self_eq_true, if_true, hmap]
  simp [reported, Event.setLane, Event.setAct]

theorem takeReport_failed_running (hr : (e.m.lane l).state = .running) (hs : (e.m.lane l).steps = h :: rest)
    (c : ActFault) :
    (e.setAct a x).takeReport a (.failed (.lane l) c) = reported l a x (failedAt a h) rest [actFaultNotice a c] e := by
  have hr' : (((e.setAct a x).raise (actFaultNotice a c)).m.lane l).state = .running := hr
  have hmap : (((e.setAct a x).raise (actFaultNotice a c)).m.lane l).mapHead (Step.record a .failed) =
      { e.m.lane l with steps := failedAt a h :: rest } := by
    rw [← record_failed]
    exact mapHead_cons _ _ _ _ hs
  show ((e.setAct a x).raise (actFaultNotice a c)).record l a .failed = _
  simp only [Event.record, hr', beq_self_eq_true, if_true, hmap]
  rfl

/-- An actuator completes a move of a RUNNING lane: the lane records it and acts on its results. -/
theorem act_done {f : View → Actuator → ActOut} {v : Env} (hr : (e.m.lane l).state = .running)
    (hs : (e.m.lane l).steps = h :: rest) (hf : f (v.view a) (e.m.act a) = { act := x, report := .done (.lane l) }) :
    e.act v a f = (reported l a x (doneAt a h) rest [] e).actOnResults v l := by
  unfold Event.act
  dsimp only
  rw [hf, ← takeReport_done hr hs]
  rfl

/-- An actuator fails a move of a RUNNING lane. -/
theorem act_failed {f : View → Actuator → ActOut} {v : Env} {c : ActFault} (hr : (e.m.lane l).state = .running)
    (hs : (e.m.lane l).steps = h :: rest)
    (hf : f (v.view a) (e.m.act a) = { act := x, report := .failed (.lane l) c }) :
    e.act v a f = (reported l a x (failedAt a h) rest [actFaultNotice a c] e).actOnResults v l := by
  unfold Event.act
  dsimp only
  rw [hf, ← takeReport_failed_running hr hs]
  rfl

end

/-- With a move PENDING a step runs on, unless one has FAILED under STOP_ALL (R47, R53). -/
theorem actOnResults_pending {l : LaneIx} {h : Machine.Step} {rest : List Machine.Step} {e : Event}
    (hs : (e.m.lane l).steps = h :: rest) (hp : ∃ p ∈ h.results, p.2 = .pending)
    (hf : (e.m.lane l).policy = .finishOthers ∨ ∀ p ∈ h.results, p.2 ≠ .failed) (v : Env) :
    e.actOnResults v l = e := by
  have hpending := (anyPending_iff h).mpr hp
  have hnotDone : ¬ h.allDone = true := by
    rw [allDone_iff]
    obtain ⟨p, hp, hpend⟩ := hp
    exact fun hall => MoveResult.noConfusion (hpend.symm.trans (hall p hp))
  unfold Event.actOnResults
  rw [hs]
  by_cases hfailed : h.anyFailed = true
  · have hpolicy := hf.resolve_right fun hnone => by
      obtain ⟨p, hp, hfail⟩ := (anyFailed_iff h).mp hfailed
      exact hnone p hp hfail
    simp [hfailed, hpending, hpolicy]
  · simp [hfailed, hnotDone]

/-! ## The results of a step with one more recorded -/

theorem pending_failedAt_iff (a b : ActIx) (h : Machine.Step) :
    (b, MoveResult.pending) ∈ (failedAt a h).results ↔ b ≠ a ∧ (b, MoveResult.pending) ∈ h.results := by
  simp only [failedAt, List.mem_map]
  constructor
  · rintro ⟨p, hp, heq⟩
    by_cases ha : p.1 = a
    · simp [ha] at heq
    · rw [if_neg ha] at heq
      subst heq
      exact ⟨ha, hp⟩
  · rintro ⟨hb, hp⟩
    exact ⟨_, hp, if_neg hb⟩

/-- A step is failed by its results when some move has FAILED, whichever it is. -/
theorem failed_failedAt {a : ActIx} {h : Machine.Step} (ha : ∃ r, (a, r) ∈ h.results) :
    ∃ p ∈ (failedAt a h).results, p.2 = .failed := by
  obtain ⟨r, hr⟩ := ha
  exact ⟨(a, .failed), List.mem_map.mpr ⟨_, hr, if_pos rfl⟩, rfl⟩

theorem doneAt_other {a : ActIx} {h : Machine.Step} {p : ActIx × MoveResult} (hp : p ∈ h.results) (hne : p.1 ≠ a) :
    p ∈ (doneAt a h).results := List.mem_map.mpr ⟨p, hp, if_neg hne⟩

theorem mem_doneAt {a : ActIx} {h : Machine.Step} {p : ActIx × MoveResult} (hp : p ∈ (doneAt a h).results) :
    p = (a, .done) ∨ p.1 ≠ a ∧ p ∈ h.results := by
  obtain ⟨q, hq, rfl⟩ := List.mem_map.mp hp
  by_cases ha : q.1 = a
  · exact .inl (if_pos ha)
  · rw [if_neg ha]
    exact .inr ⟨ha, hq⟩

theorem exists_pending_iff (h : Machine.Step) :
    (∃ p ∈ h.results, p.2 = MoveResult.pending) ↔ ∃ b, (b, MoveResult.pending) ∈ h.results :=
  ⟨fun ⟨p, hp, hr⟩ => ⟨p.1, hr ▸ hp⟩, fun ⟨_, hp⟩ => ⟨_, hp, rfl⟩⟩

/-- The lane that completes a step does not read its results. -/
theorem completedLane_doneAt (mode : Mode) (a : ActIx) (h : Machine.Step) (rest steps : List Machine.Step) (ln : Lane) :
    completedLane mode (doneAt a h) rest { ln with steps := steps } = completedLane mode h rest ln := rfl

theorem laneWithFailure_steps (h : Machine.Step) (rest steps : List Machine.Step) (ln : Lane) :
    laneWithFailure h rest { ln with steps := steps } = laneWithFailure h rest ln := by
  unfold laneWithFailure
  split <;> rfl

/-! ## A lane that has evaluated its head -/

/-- The evaluation of a head changes the lane's state, its delay timer and the head's run status alone. -/
theorem evaluatedIn_fields (mode : Mode) (ln : Lane) :
    ∃ state run timer, evaluatedIn mode ln =
      { ln.mapHead (fun h => { h with run := run }) with state := state, delayTimer := timer } := by
  unfold evaluatedIn evaluatedLane
  by_cases hm : mode = .run
  · rw [if_pos hm]
    cases hs : ln.steps with
    | nil => exact ⟨ln.state, .held, ln.delayTimer, by rw [mapHead_nil _ _ hs]⟩
    | cons h rest =>
      dsimp only
      by_cases hj : joinsAtOnce h = true
      · exact ⟨.queued, .queued, none, by rw [if_pos hj, mapHead_cons _ _ _ _ hs, queuedLane, hs]⟩
      · exact ⟨.waiting, .waiting, _, by rw [if_neg hj, mapHead_cons _ _ _ _ hs]⟩
  · exact ⟨.waiting, .held, none, by rw [if_neg hm]; rfl⟩

theorem mapHead_tags (ln : Lane) (run : RunStatus) :
    (ln.mapHead fun h => { h with run := run }).steps.map Machine.Step.tag = ln.steps.map Machine.Step.tag := by
  unfold Lane.mapHead
  split
  · rfl
  · next h => simp [h]

theorem mapHead_fields (ln : Lane) (f : Machine.Step → Machine.Step) :
    ln.mapHead f = { ln with steps := (ln.mapHead f).steps } := by
  unfold Lane.mapHead
  split <;> rfl

/-! ## The lane after a completion -/

theorem goneOn_fields (mode : Mode) (ln : Lane) :
    (goneOn mode ln).cycleCount = ln.cycleCount ∧
      (goneOn mode ln).steps.map Machine.Step.tag = ln.steps.map Machine.Step.tag ∧
      (goneOn mode ln).pausePending = false := by
  unfold goneOn
  split
  · exact ⟨rfl, rfl, rfl⟩
  · next hpause =>
    have hpause := Bool.eq_false_of_not_eq_true hpause
    split
    · exact ⟨rfl, rfl, hpause⟩
    · obtain ⟨state, run, timer, heq⟩ := evaluatedIn_fields mode ln
      rw [heq]
      refine ⟨?_, mapHead_tags .., ?_⟩ <;> rw [mapHead_fields]
      exact hpause

/-- What the completion of a step leaves of its lane, whichever way the lane goes on. -/
theorem completedLane_fields (mode : Mode) (h : Machine.Step) (rest : List Machine.Step) (ln : Lane) :
    (completedLane mode h rest ln).cycleCount = ln.cycleCount + (if h.cycleEnd then 1 else 0) ∧
      (completedLane mode h rest ln).steps.map Machine.Step.tag =
        (rest ++ (if h.recirculate then [h] else [])).map Machine.Step.tag ∧
      (completedLane mode h rest ln).pausePending = false := by
  rw [← goneOn_counted]
  obtain ⟨hcount, htags, hpause⟩ := goneOn_fields mode { countedLane h ln with
    steps := rest ++ if h.recirculate then [h.again] else [] }
  refine ⟨hcount, htags.trans ?_, hpause⟩
  cases h.recirculate <;> simp [Step.again]

theorem completedLane_of_pausePending {ln : Lane} (hp : ln.pausePending = true) (mode : Mode) (h : Machine.Step)
    (rest : List Machine.Step) : (completedLane mode h rest ln).state = .paused := by
  unfold completedLane
  dsimp only
  rw [if_pos (.inl hp)]

theorem completedLane_of_no_step {ln : Lane} {h : Machine.Step} (hp : ln.pausePending = false) (hc : h.cycleEnd = false)
    (hr : h.recirculate = false) (mode : Mode) : (completedLane mode h [] ln).state = .empty := by
  simp [completedLane, hp, hc, hr]

/-! ## The end of the step of an actuator that arrives -/

/-- A settle expiry of an actuator that a RUNNING lane owns: it arrives, and the lane acts on the DONE result. -/
theorem settle_done {s : State} {a : ActIx} {e : End} {l : LaneIx} {h : Machine.Step} {rest : List Machine.Step}
    (hst : (s.motion.act a).state = .settle) (ht : (s.motion.act a).target = some e)
    (ho : (s.motion.act a).owner = .lane l) (hr : (s.motion.lane l).state = .running)
    (hs : (s.motion.lane l).steps = h :: rest) :
    ∃ x, ArrivedAt s.time e true (s.motion.act a) x ∧ x.owner = .lane l ∧
      s.event.act s.env a Actuator.settleExpired =
        (reported l a x (doneAt a h) rest [] s.event).actOnResults s.env l := by
  obtain ⟨harrived, hreport⟩ := arrive_spec (s.env.view a) e true (s.motion.act a)
  refine ⟨_, harrived, by rw [arrive_owner, ho]; rfl, act_done hr hs ?_⟩
  rw [ho] at hreport
  rw [← hreport]
  exact settleExpired_in_settle hst ht

/-- Settles O15: the DONE result is recorded, and the lane acts on what its results then are. -/
theorem theLastDoneMoveCompletesTheStep : Obligations.TheLastDoneMoveCompletesTheStep := by
  refine ⟨fun s a e l h rest hop htimer hst ht ho hr hs hmove hdone => ?_,
    fun s a e l h rest hop htimer hst ht ho hr hs hpending hothers => ?_,
    fun s a e l h rest hop htimer hst ht ho hr hs hmove hnone hfailed => ?_⟩
  all_goals
    obtain ⟨x, harrived, hx, hevent⟩ := settle_done hst ht ho hr hs
    have hyields := Yields.of_actEvent a _ (exec_settleTimerExpiry hop htimer)
    rw [hevent] at hyields
    have hlane := lane_reported (l := l) (a := a) (x := x) (h := doneAt a h) (rest := rest) (e := s.event) []
    have hself := act_reported_self (l := l) (a := a) (x := x) (h := doneAt a h) (rest := rest) (e := s.event) []
    have hother := fun b (hb : b ≠ a) =>
      act_reported_ne (l := l) (x := x) (h := doneAt a h) (rest := rest) (e := s.event) hb []
    have hlanes := fun j (hj : j ≠ l) =>
      lane_reported_ne (a := a) (x := x) (h := doneAt a h) (rest := rest) (e := s.event) hj []
    have hsteps : ((reported l a x (doneAt a h) rest [] s.event).m.lane l).steps = doneAt a h :: rest := by rw [hlane]
    have hrun : ((reported l a x (doneAt a h) rest [] s.event).m.lane l).state = .running := by rw [hlane]; exact hr
  · have hall : ∀ p ∈ (doneAt a h).results, p.2 = .done := fun p hp => by
      obtain rfl | ⟨hne, hp⟩ := mem_doneAt hp
      · rfl
      · exact hdone p hp hne
    obtain ⟨hact, hcompleted, hothers, hqueue, hmark, hpool, hraised, _⟩ := actOnResults_done hrun hsteps hall s.env
    have hreleased := fun b (hb : ∃ mv ∈ h.moves, mv.act = b) => (hact b).trans (if_pos hb)
    have hkept := fun b (hb : ¬ ∃ mv ∈ h.moves, mv.act = b) => (hact b).trans (if_neg hb)
    rw [hlane, completedLane_doneAt] at hcompleted
    rw [hraised, hlane] at hyields
    rw [hlane, completedLane_doneAt] at hqueue
    obtain ⟨hcount, htags, hpause⟩ := completedLane_fields s.modes.mode h rest (s.motion.lane l)
    rw [← hcompleted] at hqueue
    refine ⟨_, hyields, rfl, ?_, fun mv hmv hne => ?_, fun b hb => ?_, hcompleted, fun mv hmv => ?_, hmark, hqueue,
      ?_, ?_, hpool, ?_, fun hp => ?_, fun hp hc hrest hre => ?_, fun j hj => ?_⟩
    · refine harrived.drop (.inr ?_)
      exact (hreleased a hmove).trans (by rw [hself])
    · refine (hreleased mv.act ⟨mv, hmv, rfl⟩).trans ?_
      rw [hother _ hne]
      rfl
    · refine (hkept b fun ⟨mv, hmv, he⟩ => hb mv hmv he).trans (hother b fun he => ?_)
      obtain ⟨mv, hmv, hmva⟩ := hmove
      exact hb mv hmv (hmva.trans he.symm)
    · exact congrArg Actuator.owner (hreleased mv.act ⟨mv, hmv, rfl⟩)
    · exact (congrArg Lane.cycleCount hcompleted).trans hcount
    · exact (congrArg (fun ln : Lane => ln.steps.map Machine.Step.tag) hcompleted).trans htags
    · exact (congrArg Lane.pausePending hcompleted).trans hpause
    · exact (congrArg Lane.state hcompleted).trans (completedLane_of_pausePending hp ..)
    · subst hrest
      exact (congrArg Lane.state hcompleted).trans (completedLane_of_no_step hp hc hre _)
    · exact (hothers j hj).trans (hlanes j hj)
  · have hpending' : ∃ p ∈ (doneAt a h).results, p.2 = .pending := by
      obtain ⟨p, hp, hne, hpend⟩ := hpending
      exact ⟨p, doneAt_other hp hne, hpend⟩
    have hgoesOn : ((reported l a x (doneAt a h) rest [] s.event).m.lane l).policy = .finishOthers ∨
        ∀ p ∈ (doneAt a h).results, p.2 ≠ .failed := by
      rw [hlane]
      refine hothers.imp id fun hnone p hp => ?_
      obtain rfl | ⟨hne, hp⟩ := mem_doneAt hp
      · exact MoveResult.noConfusion
      · exact hnone p hp hne
    rw [actOnResults_pending hsteps hpending' hgoesOn] at hyields
    refine ⟨_, hyields, rfl, ?_, ?_, hother, hlane, hlanes, rfl, rfl, rfl⟩
    · exact Eq.subst (motive := ArrivedAt s.time e true (s.motion.act a)) hself.symm harrived
    · exact (congrArg Actuator.owner hself).trans hx
  · have hnone' : ¬ ∃ p ∈ (doneAt a h).results, p.2 = .pending := by
      rintro ⟨p, hp, hpend⟩
      obtain rfl | ⟨hne, hp⟩ := mem_doneAt hp
      · cases hpend
      · exact hnone p hp hne hpend
    have hfailed' : ∃ p ∈ (doneAt a h).results, p.2 = .failed := by
      obtain ⟨p, hp, hne, hfail⟩ := hfailed
      exact ⟨p, doneAt_other hp hne, hfail⟩
    have hstops : ¬ RunsOn ((reported l a x (doneAt a h) rest [] s.event).m.lane l).policy (doneAt a h) :=
      fun hruns => hnone' hruns.2
    have hpending : ∀ b, (b, MoveResult.pending) ∉ (doneAt a h).results := fun b hb => hnone' ⟨_, hb, rfl⟩
    obtain ⟨hact, hleft, hothers, hqueue, hmarks, hpool, hraised, _⟩ :=
      actOnResults_failed hrun hsteps hfailed' s.env
    have hreleased := fun b => (hact b).trans (if_neg hstops)
    rw [hraised, if_neg hstops] at hyields
    rw [hlane, laneWithFailure_steps] at hleft
    have hfaulted : laneWithFailure (doneAt a h) rest (s.motion.lane l) =
        failedLane (doneAt a h) rest (s.motion.lane l) := if_neg hnone'
    refine ⟨_, hyields, rfl, ?_, ?_, fun mv hmv hne => ?_, fun b hb => ?_, hleft, ?_, ?_, fun j hj => ?_, hqueue, hmarks,
      hpool⟩
    · refine harrived.drop (.inr ?_)
      refine (hreleased a).trans ?_
      rw [hself, abortedAct_settled (hpending a) hmove, if_pos hx]
    · refine (congrArg Actuator.owner (hreleased a)).trans ?_
      rw [hself, abortedAct_settled (hpending a) hmove, if_pos hx]
    · refine (hreleased mv.act).trans ?_
      rw [hother _ hne, abortedAct_settled (hpending mv.act) ⟨mv, hmv, rfl⟩]
      rfl
    · refine (hreleased b).trans ?_
      have hne : b ≠ a := fun he => by
        obtain ⟨mv, hmv, hmva⟩ := hmove
        exact hb mv hmv (hmva.trans he.symm)
      have hunnamed : ¬ ∃ mv ∈ (doneAt a h).moves, mv.act = b := fun ⟨mv, hmv, he⟩ => hb mv hmv he
      simp only [abortedAct, hpending b, hunnamed, if_false, false_and]
      exact hother b hne
    · exact congrArg Lane.state (hleft.trans hfaulted)
    · exact congrArg Lane.failedAct (hleft.trans hfaulted)
    · exact (hothers j hj).trans (hlanes j hj)

/-! ## The end of the step of an actuator that faults -/

/-- A travel expiry with the target side sensed, of an actuator that a RUNNING lane owns: it faults TIMEOUT, and the lane acts
on the FAILED result. -/
theorem travel_failed {s : State} {a : ActIx} {e : End} {l : LaneIx} {h : Machine.Step} {rest : List Machine.Step}
    (hst : (s.motion.act a).state = .travel) (ht : (s.motion.act a).target = some e)
    (hsensed : (s.motion.act a).cfg.sensing.has e = true) (ho : (s.motion.act a).owner = .lane l)
    (hr : (s.motion.lane l).state = .running) (hs : (s.motion.lane l).steps = h :: rest) :
    ∃ x, FaultedWith s.time .timeout (s.motion.act a) x ∧
      s.event.act s.env a Actuator.travelExpired =
        (reported l a x (failedAt a h) rest [actFaultNotice a .timeout] s.event).actOnResults s.env l := by
  obtain ⟨hfaulted, hreport⟩ := faultWith_spec (s.env.view a) .timeout (s.motion.act a)
  refine ⟨_, hfaulted, act_failed hr hs ?_⟩
  rw [ho] at hreport
  rw [← hreport]
  exact travelExpired_timeout hst ht hsensed

theorem abortedAct_not_lane {h : Machine.Step} {b : ActIx} {x : Actuator} {l : LaneIx}
    (hb : (b, MoveResult.pending) ∉ h.results) (hx : x.owner ≠ .lane l) (v : View) : abortedAct v l h b x = x := by
  simp only [abortedAct, hb, hx, if_false, and_false]

/-- What a RUNNING lane makes of a FAILED result of actuator `a`, which is left as `x`. -/
structure FailureReported (v : Env) (l : LaneIx) (a : ActIx) (x : Actuator) (h : Machine.Step)
    (rest : List Machine.Step) (notes : List Raised) (e e' : Event) : Prop where
  self : e'.m.act a = x
  act : ∀ b, b ≠ a → e'.m.act b =
    if RunsOn (e.m.lane l).policy (failedAt a h) then e.m.act b
    else abortedAct (v.view b) l (failedAt a h) b (e.m.act b)
  lane : e'.m.lane l = laneWithFailure (failedAt a h) rest (e.m.lane l)
  others : ∀ j, j ≠ l → e'.m.lane j = e.m.lane j
  queue : e'.m.queue = e.m.queue
  marks : e'.m.marks = e.m.marks
  poolFree : e'.m.poolFree = e.m.poolFree
  raised : e'.raised = e.raised ++ notes ++
    if RunsOn (e.m.lane l).policy (failedAt a h) then [] else [failNotice l h]
  started : e'.started = e.started

theorem reported_failed {l : LaneIx} {a : ActIx} {x : Actuator} {h : Machine.Step} {rest : List Machine.Step}
    {e : Event} (hr : (e.m.lane l).state = .running) (hresult : ∃ r, (a, r) ∈ h.results) (hx : x.owner ≠ .lane l)
    (notes : List Raised) (v : Env) :
    FailureReported v l a x h rest notes e ((reported l a x (failedAt a h) rest notes e).actOnResults v l) := by
  have hlane := lane_reported (l := l) (a := a) (x := x) (h := failedAt a h) (rest := rest) (e := e) notes
  have hself := act_reported_self (l := l) (a := a) (x := x) (h := failedAt a h) (rest := rest) (e := e) notes
  have hpending : (a, MoveResult.pending) ∉ (failedAt a h).results := fun hp =>
    ((pending_failedAt_iff a a h).mp hp).1 rfl
  obtain ⟨hact, hleft, hothers, hqueue, hmarks, hpool, hraised, hstarted⟩ :=
    actOnResults_failed (e := reported l a x (failedAt a h) rest notes e) (l := l) (h := failedAt a h) (rest := rest)
      (by rw [hlane]; exact hr) (by rw [hlane]) (failed_failedAt hresult) v
  rw [hlane] at hleft hact hraised
  refine { self := ?_, act := fun b hb => ?_, lane := hleft.trans (laneWithFailure_steps ..),
           others := fun j hj => (hothers j hj).trans (lane_reported_ne hj notes), queue := hqueue, marks := hmarks,
           poolFree := hpool, raised := hraised, started := hstarted }
  · rw [hact a, hself, abortedAct_not_lane hpending hx, ite_self]
  · rw [hact b, act_reported_ne hb]

/-- A step that fails leaves nothing to the lane's actuators. -/
theorem FailureReported.released {v : Env} {l : LaneIx} {a : ActIx} {x : Actuator} {h : Machine.Step}
    {rest : List Machine.Step} {notes : List Raised} {e e' : Event} (hf : FailureReported v l a x h rest notes e e')
    (hx : x.owner ≠ .lane l) (hstops : ¬ RunsOn (e.m.lane l).policy (failedAt a h)) (mv : Move) (hmv : mv ∈ h.moves) :
    (e'.m.act mv.act).owner ≠ .lane l := by
  by_cases hne : mv.act = a
  · rw [hne, hf.self]
    exact hx
  · rw [hf.act _ hne, if_neg hstops]
    exact abortedAct_not_owned (h := failedAt a h) ⟨mv, hmv, rfl⟩ _ _ _

/-- Settles O16: the FAILED result is recorded, and the lane acts on what its results then are. -/
theorem theLastFailedMoveFailsTheStep : Obligations.TheLastFailedMoveFailsTheStep := by
  refine ⟨fun s a e l h rest hop htimer hst ht hsensed ho hr hs hresult hnone => ?_,
    fun s a e l h rest hop htimer hst ht hsensed ho hr hs hresult hpending => ?_⟩
  all_goals
    obtain ⟨x, hfaulted, hevent⟩ := travel_failed hst ht hsensed ho hr hs
    have hyields := Yields.of_actEvent a _ (exec_travelTimerExpiry hop htimer)
    have hunowned : x.owner ≠ .lane l := by rw [hfaulted.owner]; exact Owner.noConfusion
    have hfailure := reported_failed (e := s.event) (rest := rest) hr hresult hunowned [actFaultNotice a .timeout] s.env
    rw [← hevent] at hfailure
    rw [hfailure.raised] at hyields
    have hfaulted' := Eq.subst (motive := FaultedWith s.time .timeout (s.motion.act a)) hfailure.self.symm hfaulted
  · have hnone' : ¬ ∃ p ∈ (failedAt a h).results, p.2 = .pending := by
      rw [exists_pending_iff]
      rintro ⟨b, hb⟩
      obtain ⟨hne, hp⟩ := (pending_failedAt_iff a b h).mp hb
      exact hnone _ hp hne rfl
    have hstops : ¬ RunsOn (s.event.m.lane l).policy (failedAt a h) := fun hruns => hnone' hruns.2
    have hpending : ∀ b, (b, MoveResult.pending) ∉ (failedAt a h).results := fun b hb => hnone' ⟨_, hb, rfl⟩
    have hlane := hfailure.lane.trans (if_neg hnone')
    rw [if_neg hstops] at hyields
    refine ⟨_, hyields, rfl, hfaulted', hfailure.lane, fun mv hmv hne => ?_, fun b hb hmv => ?_,
      congrArg Lane.state hlane, congrArg Lane.fault hlane, congrArg Lane.failedAct hlane,
      congrArg Lane.pausePending hlane, ?_, hfailure.released hunowned hstops, hfailure.queue, hfailure.marks,
      hfailure.poolFree, hfailure.others⟩
    · refine (hfailure.act _ hne).trans ?_
      rw [if_neg hstops, abortedAct_settled (hpending mv.act) ⟨mv, hmv, rfl⟩]
      rfl
    · refine (hfailure.act _ hb).trans ?_
      have hunnamed : ¬ ∃ mv ∈ (failedAt a h).moves, mv.act = b := fun ⟨mv, hmem, he⟩ => hmv mv hmem he
      simp only [hstops, abortedAct, hpending b, hunnamed, if_false, false_and]
      rfl
    · exact congrArg (fun ln : Lane => ln.steps.map fun g => (g.tag, g.run)) hlane
  · have hpending' : ∃ p ∈ (failedAt a h).results, p.2 = .pending := by
      obtain ⟨b, hb, hp⟩ := hpending
      exact ⟨_, (pending_failedAt_iff a b h).mpr ⟨hb, hp⟩, rfl⟩
    refine ⟨{ s with motion := (s.event.act s.env a Actuator.travelExpired).m }, rfl, hfaulted', hfailure.lane,
      hfailure.others, hfailure.queue, hfailure.marks, hfailure.poolFree,
      fun hpolicy => ?_, fun hpolicy => ?_⟩
    · have hruns : RunsOn (s.event.m.lane l).policy (failedAt a h) := ⟨hpolicy, hpending'⟩
      rw [if_pos hruns] at hyields
      exact ⟨hyields, fun b hb => (hfailure.act b hb).trans (if_pos hruns)⟩
    · have hstops : ¬ RunsOn (s.event.m.lane l).policy (failedAt a h) := fun hruns =>
        FaultPolicy.noConfusion (hruns.1.symm.trans hpolicy)
      rw [if_neg hstops] at hyields
      refine ⟨hyields, fun b hb hp hm => ?_, hfailure.released hunowned hstops, fun b hb hresults hmoves => ?_⟩
      · refine ((hfailure.act b hb).trans (if_neg hstops)).trans ?_
        exact abortedAct_pending ((pending_failedAt_iff a b h).mpr ⟨hb, hp⟩) hm _ _
      · refine ((hfailure.act b hb).trans (if_neg hstops)).trans
          (abortedAct_unnamed (h := failedAt a h) hmoves (fun p hp he => ?_) _ _ _)
        obtain ⟨q, hq, rfl⟩ := List.mem_map.mp hp
        by_cases hqa : q.1 = a
        · rw [if_pos hqa] at he
          exact hb he.symm
        · rw [if_neg hqa] at he
          exact hresults q hq he

end Sys2Proof.Proofs.StepResults
end

section
/-! PROOFS of the family 01, what every operation of one actuator keeps (R5 to R29): the law of the actuator and that of its
two coils, and what its report tells of its owner. -/

namespace Sys2Proof.Proofs.ActuatorLaws

open Sys2Proof.Machine Sys2Proof.Safety Sys2Proof.Proofs.LinesAndBanks Sys2Proof.Proofs.EventRows

/-- The law of one actuator and of its two coils. -/
def Lawful (x : Actuator) : Prop := ActuatorLaw x ∧ CoilLaw x

/-! ## The coils -/

/-- What the coils of a managed actuator keep whatever its state: never both on, and a pulsed coil on only with its pulse. -/
structure CoilsFit (x : Actuator) : Prop where
  managed : x.managed = true
  one : x.cfg.kind.double = true → ¬ (x.lineA = true ∧ x.lineB = true)
  pulsedA : x.cfg.kind = .doublePulsed → x.lineA = true → ∃ n, x.pulse = some { coil := .x, left := n }
  pulsedB : x.cfg.kind = .doublePulsed → x.lineB = true → ∃ n, x.pulse = some { coil := .r, left := n }
  pulsed : x.pulse.isSome = true → x.cfg.kind = .doublePulsed

/-- The coils of a two-coil actuator off, and no pulse. -/
structure CoilsRest (x : Actuator) : Prop where
  pulse : x.pulse = none
  off : x.cfg.kind.double = true → x.lineA = false ∧ x.lineB = false

/-- The same configuration, lines and pulse. -/
structure SameCoils (x y : Actuator) : Prop where
  cfg : y.cfg = x.cfg
  lineA : y.lineA = x.lineA
  lineB : y.lineB = x.lineB
  pulse : y.pulse = x.pulse

theorem SameCoils.fit {x y : Actuator} (h : SameCoils x y) (hx : CoilsFit x) : CoilsFit y := by
  obtain ⟨hcfg, hA, hB, hp⟩ := h
  obtain ⟨hm, hone, hpA, hpB, hpulse⟩ := hx
  unfold Actuator.managed at hm
  exact ⟨by unfold Actuator.managed; rw [hcfg]; exact hm, by rw [hcfg, hA, hB]; exact hone,
    by rw [hcfg, hA, hp]; exact hpA, by rw [hcfg, hB, hp]; exact hpB, by rw [hcfg, hp]; exact hpulse⟩

theorem Lawful.fit {x : Actuator} (h : Lawful x) (hm : x.managed = true) : CoilsFit x := by
  obtain ⟨⟨_, _, _, _, _, _, _, _, _, _, _, hpulse⟩, hcoil⟩ := h
  refine ⟨hm, fun hd => (hcoil hd).1, fun hk => ?_, fun hk => ?_, fun hp => (hpulse hp).1⟩
  · exact ((hcoil (by rw [hk]; rfl)).2.2 hk).1
  · exact ((hcoil (by rw [hk]; rfl)).2.2 hk).2

theorem kind_of_managed {x : Actuator} (hm : x.managed = true) :
    x.cfg.kind = .single ∨ x.cfg.kind = .doubleHeld ∨ x.cfg.kind = .doublePulsed := by
  unfold Actuator.managed at hm
  cases hk : x.cfg.kind <;> simp_all [Kind.managed]

theorem coilsOff_fit {x : Actuator} (hm : x.managed = true) : CoilsFit x.coilsOff ∧ CoilsRest x.coilsOff := by
  obtain hk | hk | hk := kind_of_managed hm <;>
    exact ⟨by constructor <;> simp_all [Actuator.coilsOff, Actuator.managed, Kind.double],
      by constructor <;> simp [Actuator.coilsOff, hk, Kind.double]⟩

/-- Without its pulse, the coil of a DOUBLE_PULSED actuator is off. -/
theorem cutPulse_fit {x : Actuator} (h : CoilsFit x) : CoilsFit x.cutPulse ∧ x.cutPulse.pulse = none := by
  obtain ⟨hm, hone, hA, hB, hp⟩ := h
  cases hx : x.pulse with
  | none =>
    rw [cutPulse_none x hx]
    exact ⟨⟨hm, hone, hA, hB, hp⟩, hx⟩
  | some p =>
    have hk := hp (by rw [hx]; rfl)
    obtain ⟨c, n⟩ := p
    cases c with
    | x =>
      have hB' : x.lineB = false := by
        by_contra hb
        obtain ⟨_, hn⟩ := hB hk (by simpa using hb)
        cases hx.symm.trans hn
      have heq : x.cutPulse = { x with lineA := false, pulse := none } := by simp [Actuator.cutPulse, hx, Actuator.setCoil]
      rw [heq]
      exact ⟨⟨hm, by simp, by simp, by simp [hB'], by simp⟩, rfl⟩
    | r =>
      have hA' : x.lineA = false := by
        by_contra ha
        obtain ⟨_, hn⟩ := hA hk (by simpa using ha)
        cases hx.symm.trans hn
      have heq : x.cutPulse = { x with lineB := false, pulse := none } := by simp [Actuator.cutPulse, hx, Actuator.setCoil]
      rw [heq]
      exact ⟨⟨hm, by simp, by simp [hA'], by simp, by simp⟩, rfl⟩

theorem applyAction_fit (c : Machine.Action) {x : Actuator} (h : CoilsFit x) :
    CoilsFit (x.applyAction c) ∧ (x.applyAction c).pulse = none := by
  cases c with
  | hold => exact cutPulse_fit h
  | release => exact ⟨(coilsOff_fit h.managed).1, (coilsOff_fit h.managed).2.pulse⟩

theorem holdAt_fit (t : End) {x : Actuator} (h : CoilsFit x) : CoilsFit (x.holdAt t) := by
  obtain ⟨hm, hone, hA, hB, hp⟩ := h
  obtain hk | hk | hk := kind_of_managed hm
  · have heq : x.holdAt t = { x with lineA := t == .x } := by simp [Actuator.holdAt, hk]
    rw [heq]
    exact ⟨hm, by simp [hk, Kind.double], by simp [hk], by simp [hk], hp⟩
  · have heq : x.holdAt t = { x with lineA := t == .x, lineB := t == .r } := by simp [Actuator.holdAt, hk]
    rw [heq]
    exact ⟨hm, fun _ => by cases t <;> simp, by simp [hk], by simp [hk], hp⟩
  · have heq : x.holdAt t = { x with lineA := false, lineB := false, pulse := none } := by simp [Actuator.holdAt, hk]
    rw [heq]
    exact ⟨hm, by simp, by simp, by simp, by simp⟩

/-- With its opposite coil off, the target coil can go on. -/
theorem energise_fit (t : End) {x : Actuator} (h : CoilsFit x) (ho : x.oppositeOn t = false) : CoilsFit (x.energise t) := by
  obtain ⟨hm, hone, hA, hB, hp⟩ := h
  obtain hk | hk | hk := kind_of_managed hm
  · have heq : x.energise t = { x with lineA := t == .x } := by simp [Actuator.energise, hk]
    rw [heq]
    exact ⟨hm, by simp [hk, Kind.double], by simp [hk], by simp [hk], hp⟩
  · have heq : x.energise t = x.setCoil t true := by simp [Actuator.energise, hk]
    rw [heq]
    cases t with
    | x =>
      have hoff : x.lineB = false := by simpa [Actuator.oppositeOn, hk, End.opposite, Actuator.coil] using ho
      exact ⟨hm, by simp [Actuator.setCoil, hoff], by simp [Actuator.setCoil, hk], by simp [Actuator.setCoil, hk], hp⟩
    | r =>
      have hoff : x.lineA = false := by simpa [Actuator.oppositeOn, hk, End.opposite, Actuator.coil] using ho
      exact ⟨hm, by simp [Actuator.setCoil, hoff], by simp [Actuator.setCoil, hk], by simp [Actuator.setCoil, hk], hp⟩
  · have heq : x.energise t = { x.setCoil t true with pulse := some ⟨t, x.cfg.pulseLength⟩ } := by
      simp [Actuator.energise, hk]
    rw [heq]
    cases t with
    | x =>
      have hoff : x.lineB = false := by
        by_contra hb
        obtain ⟨_, hn⟩ := hB hk (by simpa using hb)
        simp [Actuator.oppositeOn, hk, End.opposite, hn] at ho
      exact ⟨hm, by simp [Actuator.setCoil, hoff], by simp [Actuator.setCoil], by simp [Actuator.setCoil, hoff],
        by simp [Actuator.setCoil, hk]⟩
    | r =>
      have hoff : x.lineA = false := by
        by_contra ha
        obtain ⟨_, hn⟩ := hA hk (by simpa using ha)
        simp [Actuator.oppositeOn, hk, End.opposite, hn] at ho
      exact ⟨hm, by simp [Actuator.setCoil, hoff], by simp [Actuator.setCoil, hoff], by simp [Actuator.setCoil],
        by simp [Actuator.setCoil, hk]⟩

theorem oppositeOn_of_off {x : Actuator} (t : End) (hp : x.pulse = none)
    (hoff : x.cfg.kind.double = true → x.lineA = false ∧ x.lineB = false) : x.oppositeOn t = false := by
  unfold Actuator.oppositeOn
  cases hk : x.cfg.kind with
  | single | none | direct => rfl
  | doublePulsed => simp [hp]
  | doubleHeld =>
    obtain ⟨hA, hB⟩ := hoff (by rw [hk]; rfl)
    cases t <;> simp [Actuator.coil, End.opposite, hA, hB]

/-- The opposite coil, found on, goes off with its pulse; the target coil was off already (R12). -/
theorem crossover_fit (t : End) {x : Actuator} (h : CoilsFit x) (ho : x.oppositeOn t = true) :
    CoilsFit (x.cutPulse.setCoil t.opposite false) ∧ CoilsRest (x.cutPulse.setCoil t.opposite false) := by
  obtain ⟨hm, hone, hA, hB, hp⟩ := h
  obtain hk | hk | hk := kind_of_managed hm
  · simp [Actuator.oppositeOn, hk] at ho
  · have hnone : x.pulse = none := by
      by_contra hsome
      cases hk.symm.trans (hp (Option.isSome_iff_ne_none.mpr hsome))
    have hone := hone (by rw [hk]; rfl)
    rw [cutPulse_none x hnone]
    cases t with
    | x =>
      have hon : x.lineB = true := by simpa [Actuator.oppositeOn, hk, End.opposite, Actuator.coil] using ho
      have hoff : x.lineA = false := by simpa [hon] using hone
      exact ⟨⟨hm, by simp [Actuator.setCoil, End.opposite], by simp [Actuator.setCoil, End.opposite, hk],
        by simp [Actuator.setCoil, End.opposite], hp⟩, hnone, by simp [Actuator.setCoil, End.opposite, hoff]⟩
    | r =>
      have hon : x.lineA = true := by simpa [Actuator.oppositeOn, hk, End.opposite, Actuator.coil] using ho
      have hoff : x.lineB = false := by simpa [hon] using hone
      exact ⟨⟨hm, by simp [Actuator.setCoil, End.opposite], by simp [Actuator.setCoil, End.opposite],
        by simp [Actuator.setCoil, End.opposite, hk], hp⟩, hnone, by simp [Actuator.setCoil, End.opposite, hoff]⟩
  · cases hx : x.pulse with
    | none => simp [Actuator.oppositeOn, hk, hx] at ho
    | some p =>
      obtain ⟨c, n⟩ := p
      obtain rfl : c = t.opposite := by simpa [Actuator.oppositeOn, hk, hx] using ho
      cases t with
      | x =>
        have hoff : x.lineA = false := by
          by_contra ha
          obtain ⟨_, hn⟩ := hA hk (by simpa using ha)
          cases hx.symm.trans hn
        have heq : x.cutPulse.setCoil .r false = { x with lineB := false, pulse := none } := by
          simp [Actuator.cutPulse, hx, Actuator.setCoil, End.opposite]
        rw [End.opposite, heq]
        exact ⟨⟨hm, by simp, by simp [hoff], by simp, by simp⟩, rfl, by simp [hoff]⟩
      | r =>
        have hoff : x.lineB = false := by
          by_contra hb
          obtain ⟨_, hn⟩ := hB hk (by simpa using hb)
          cases hx.symm.trans hn
        have heq : x.cutPulse.setCoil .x false = { x with lineA := false, pulse := none } := by
          simp [Actuator.cutPulse, hx, Actuator.setCoil, End.opposite]
        rw [End.opposite, heq]
        exact ⟨⟨hm, by simp, by simp, by simp [hoff], by simp⟩, rfl, by simp [hoff]⟩

/-! ## An actuator in a state is lawful -/

section

variable {x : Actuator}

theorem CoilsFit.coilLaw (h : CoilsFit x) (hgap : x.state = .gap → CoilsRest x) : CoilLaw x := fun hd =>
  ⟨h.one hd, fun hg => (hgap hg).off hd, fun hk => ⟨h.pulsedA hk, h.pulsedB hk⟩⟩

theorem lawful_rest (h : CoilsFit x) (hstate : x.state = .rest) (htarget : x.target = none) (hfault : x.fault = none)
    (hg : x.gapTimer = none) (ht : x.travelTimer = none) (hs : x.settleTimer = none)
    (hsup : x.supervised = true → x.position ≠ .u) : Lawful x := by
  refine ⟨?_, h.coilLaw (by simp [hstate])⟩
  have hpulse := h.pulsed
  unfold ActuatorLaw
  simp_all [Actuator.moving, h.managed]

theorem lawful_faulted (h : CoilsFit x) (hpulse : x.pulse = none) (hstate : x.state = .faulted) (htarget : x.target = none)
    (hfault : x.fault.isSome = true) (howner : x.owner = .none) (hg : x.gapTimer = none) (ht : x.travelTimer = none)
    (hs : x.settleTimer = none) (hsup : x.supervised = false) : Lawful x := by
  refine ⟨?_, h.coilLaw (by simp [hstate])⟩
  unfold ActuatorLaw
  simp_all [Actuator.moving, h.managed]

theorem lawful_travel (h : CoilsFit x) (hstate : x.state = .travel) (htarget : x.target.isSome = true)
    (hfault : x.fault = none) (howner : x.owner ≠ .none) (hg : x.gapTimer = none) (ht : x.travelTimer.isSome = true)
    (hs : x.settleTimer = none) (hsup : x.supervised = false) : Lawful x := by
  refine ⟨?_, h.coilLaw (by simp [hstate])⟩
  have hpulse := h.pulsed
  unfold ActuatorLaw
  simp_all [Actuator.moving, h.managed]

theorem lawful_settle (h : CoilsFit x) (hstate : x.state = .settle) (htarget : x.target.isSome = true)
    (hfault : x.fault = none) (howner : x.owner ≠ .none) (hg : x.gapTimer = none) (hs : x.settleTimer.isSome = true)
    (hsup : x.supervised = false) : Lawful x := by
  refine ⟨?_, h.coilLaw (by simp [hstate])⟩
  have hpulse := h.pulsed
  unfold ActuatorLaw
  simp_all [Actuator.moving, h.managed]

theorem lawful_gap (h : CoilsFit x) (hrest : CoilsRest x) (hstate : x.state = .gap) (htarget : x.target.isSome = true)
    (hfault : x.fault = none) (howner : x.owner ≠ .none) (hg : x.gapTimer.isSome = true) (ht : x.travelTimer = none)
    (hs : x.settleTimer = none) (hsup : x.supervised = false) : Lawful x := by
  refine ⟨?_, h.coilLaw fun _ => hrest⟩
  have hpulse := hrest.pulse
  unfold ActuatorLaw
  simp_all [Actuator.moving, h.managed]

end

/-! ## What an operation leaves, and what it reports -/

/-- A move of owner `o` on an actuator of configuration `cfg` runs on, completes, or fails. -/
inductive Moves (o : Owner) (cfg : ActConfig) : ActOut → Prop
  | runs {b : Actuator} (hcfg : b.cfg = cfg) (howner : b.owner = o) (hmoving : b.moving = true) : Moves o cfg b.silent
  | done {b : Actuator} (hcfg : b.cfg = cfg) (howner : b.owner = ownerKept o) (hstate : b.state = .rest) :
      Moves o cfg { act := b, report := .done o }
  | failed {b : Actuator} (c : ActFault) (hcfg : b.cfg = cfg) (howner : b.owner = .none) (hstate : b.state = .faulted) :
      Moves o cfg { act := b, report := .failed o c }

/-- An actuator that does not move changes in neither its owner nor its state. -/
structure Rests (x : Actuator) (out : ActOut) : Prop where
  still : x.moving = false
  report : out.report = .quiet
  cfg : out.act.cfg = x.cfg
  owner : out.act.owner = x.owner
  state : out.act.state = x.state

/-- What an operation makes of an actuator: a lawful one, which its owner is told of. -/
structure Acted (x : Actuator) (out : ActOut) : Prop where
  law : Lawful out.act
  does : Moves x.owner x.cfg out ∨ Rests x out
  runs : out.act.moving = true → x.moving = true

/-- A move under way, or begun, with owner `o`. -/
structure MoveKept (o : Owner) (cfg : ActConfig) (out : ActOut) : Prop where
  law : Lawful out.act
  does : Moves o cfg out

theorem MoveKept.acted {x : Actuator} {out : ActOut} (h : MoveKept x.owner x.cfg out) (hm : x.moving = true) :
    Acted x out := ⟨h.law, .inl h.does, fun _ => hm⟩

/-- The report of a move concerns its owner. -/
theorem Moves.lane? {o : Owner} {cfg : ActConfig} {out : ActOut} {l : LaneIx} (h : Moves o cfg out)
    (hl : out.report.lane? = some l) : o = .lane l := by
  cases h with
  | runs => cases hl
  | done => cases o <;> simp_all [Report.lane?]
  | failed => cases o <;> simp_all [Report.lane?]

section

variable {x : Actuator} (v : View)

theorem faultWith_kept (c : ActFault) (h : CoilsFit x) : MoveKept x.owner x.cfg (x.faultWith v c) := by
  obtain ⟨hf, _⟩ := faultWith_spec v c x
  have hb : (x.faultWith v c).act = (faultBase v c x).applyAction x.cfg.faultAction := rfl
  obtain ⟨hfit, hpulse⟩ := applyAction_fit x.cfg.faultAction 
    (SameCoils.fit (x := x) (y := faultBase v c x) ⟨rfl, rfl, rfl, rfl⟩ h)
  rw [← hb] at hfit hpulse
  obtain ⟨hg, ht, hs⟩ := hf.timers
  exact ⟨lawful_faulted hfit hpulse hf.state hf.target (by rw [hf.fault]; rfl) hf.owner hg ht hs hf.supervised,
    .failed c hf.cfg hf.owner hf.state⟩

theorem faultWith_acted (c : ActFault) (h : CoilsFit x) : Acted x (x.faultWith v c) := by
  obtain ⟨hlaw, hdoes⟩ := faultWith_kept v c h
  have hstate := (faultWith_spec v c x).1.state
  refine ⟨hlaw, .inl hdoes, fun hm => ?_⟩
  simp [Actuator.moving, hstate] at hm

theorem finish_kept (h : CoilsFit x) (hstate : x.state = .rest) (htarget : x.target = none) (hfault : x.fault = none)
    (hg : x.gapTimer = none) (ht : x.travelTimer = none) (hs : x.settleTimer = none)
    (hsup : x.supervised = true → x.position ≠ .u) : MoveKept x.owner x.cfg x.finish := by
  rw [finish_eq]
  exact ⟨lawful_rest (SameCoils.fit (x := x) ⟨rfl, rfl, rfl, rfl⟩ h) hstate htarget hfault hg ht hs hsup,
    .done rfl rfl hstate⟩

theorem position_ne_u (t : End) : t.position ≠ .u := by cases t <;> exact nofun

theorem arrive_kept (t : End) (sup : Bool) (h : CoilsFit x) (hfault : x.fault = none) :
    MoveKept x.owner x.cfg (x.arrive v t sup) :=
  finish_kept (x := { x.stopTimers with
      state := .rest, position := t.position, supervised := sup, target := none, entryTime := v.time })
    (SameCoils.fit (x := x) ⟨rfl, rfl, rfl, rfl⟩ h) rfl rfl hfault rfl rfl rfl fun _ => position_ne_u t

theorem enterSettle_kept (t : End) (h : CoilsFit x) (hfault : x.fault = none) (howner : x.owner ≠ .none)
    (hg : x.gapTimer = none) (hsup : x.supervised = false) : MoveKept x.owner x.cfg (x.enterSettle v t) := by
  unfold Actuator.enterSettle
  dsimp only
  split
  · exact faultWith_kept (x := { x with state := .settle, target := some t, entryTime := v.time }) v _
      (SameCoils.fit (x := x) ⟨rfl, rfl, rfl, rfl⟩ h)
  · split
    · exact arrive_kept (x := { x with state := .settle, target := some t, entryTime := v.time }) v t true
        (SameCoils.fit (x := x) ⟨rfl, rfl, rfl, rfl⟩ h) hfault
    · exact ⟨lawful_settle (SameCoils.fit (x := x) ⟨rfl, rfl, rfl, rfl⟩ h) rfl rfl hfault howner hg rfl hsup,
        .runs rfl rfl rfl⟩

theorem energise_fields (t : End) (x : Actuator) :
    ∃ la lb p, x.energise t = { x with lineA := la, lineB := lb, pulse := p } := by
  unfold Actuator.energise
  cases x.cfg.kind <;> cases t <;> exact ⟨_, _, _, rfl⟩

theorem enterTravel_kept (t : End) (h : CoilsFit x) (ho : x.oppositeOn t = false) (hfault : x.fault = none)
    (howner : x.owner ≠ .none) (hsup : x.supervised = false) : MoveKept x.owner x.cfg (x.enterTravel v t) := by
  obtain ⟨y, hy⟩ : ∃ y, y = Actuator.energise t { x with
      state := .travel, target := some t, entryTime := v.time, gapTimer := none,
      travelTimer := some x.cfg.travelLimit, settleTimer := none } := ⟨_, rfl⟩
  have hfit : CoilsFit y := hy ▸ energise_fit t (SameCoils.fit (x := x) ⟨rfl, rfl, rfl, rfl⟩ h) ho
  have heq : x.enterTravel v t =
      if y.inConflict v then y.faultWith v .conflict else if y.senses v t then y.enterSettle v t else y.silent := by
    rw [hy]
    rfl
  obtain ⟨la, lb, p, hfields⟩ := energise_fields t { x with
    state := .travel, target := some t, entryTime := v.time, gapTimer := none,
    travelTimer := some x.cfg.travelLimit, settleTimer := none }
  rw [← hy] at hfields
  have hcfg : y.cfg = x.cfg := by rw [hfields]
  have hown : y.owner = x.owner := by rw [hfields]
  have hyfault : y.fault = none := by rw [hfields]; exact hfault
  have hysup : y.supervised = false := by rw [hfields]; exact hsup
  have hstate : y.state = .travel := by rw [hfields]
  have htarget : y.target.isSome = true := by rw [hfields]; rfl
  have hg : y.gapTimer = none := by rw [hfields]
  have ht : y.travelTimer.isSome = true := by rw [hfields]; rfl
  have hs : y.settleTimer = none := by rw [hfields]
  rw [heq, ← hcfg, ← hown]
  rw [← hown] at howner
  clear hy heq hfields
  split
  · exact faultWith_kept v _ hfit
  · split
    · exact enterSettle_kept v t hfit hyfault howner hg hysup
    · exact ⟨lawful_travel hfit hstate htarget hyfault howner hg ht hs hysup,
        .runs rfl rfl (by simp [Actuator.moving, hstate])⟩

theorem runMove_kept (t : End) (h : CoilsFit x) (hfault : x.fault = none) (howner : x.owner ≠ .none) :
    MoveKept x.owner x.cfg (x.runMove v t) := by
  obtain ⟨b, hb⟩ : ∃ b, b = ({ x.stopTimers with supervised := false } : Actuator) := ⟨_, rfl⟩
  have hfit : CoilsFit b := hb ▸ SameCoils.fit (x := x) ⟨rfl, rfl, rfl, rfl⟩ h
  have heq : x.runMove v t = if b.oppositeOn t then b.enterGap v t else b.enterTravel v t := by
    rw [hb]
    rfl
  have hcfg : b.cfg = x.cfg := by rw [hb]; rfl
  have hown : b.owner = x.owner := by rw [hb]; rfl
  have hbfault : b.fault = none := by rw [hb]; exact hfault
  have hbsup : b.supervised = false := by rw [hb]
  have hbt : b.travelTimer = none := by rw [hb]; rfl
  have hbs : b.settleTimer = none := by rw [hb]; rfl
  rw [heq, ← hcfg, ← hown]
  rw [← hown] at howner
  clear hb heq hcfg hown h hfault
  split
  · next ho =>
    obtain ⟨hfit', hrest⟩ := crossover_fit t hfit ho
    obtain ⟨c, hc⟩ : ∃ c, c = b.cutPulse.setCoil t.opposite false := ⟨_, rfl⟩
    rw [← hc] at hfit' hrest
    obtain ⟨la, lb, hcut⟩ := cutPulse_fields b
    obtain ⟨la', lb', hset⟩ := setCoil_fields t.opposite false b.cutPulse
    have hfields : c = { b with lineA := la', lineB := lb', pulse := none } := by rw [hc, hset, hcut]
    have heq : b.enterGap v t =
        if ({ c with state := .gap, target := some t, entryTime := v.time } : Actuator).inConflict v then
          ({ c with state := .gap, target := some t, entryTime := v.time } : Actuator).faultWith v .conflict
        else if c.cfg.crossoverGap = 0 then
          ({ c with state := .gap, target := some t, entryTime := v.time } : Actuator).enterTravel v t
        else ({ c with
          state := .gap, target := some t, entryTime := v.time, gapTimer := some c.cfg.crossoverGap } : Actuator).silent := by
      rw [hc]
      rfl
    have hcfg : c.cfg = b.cfg := by rw [hfields]
    have hown : c.owner = b.owner := by rw [hfields]
    have hcfault : c.fault = none := by rw [hfields]; exact hbfault
    have hcsup : c.supervised = false := by rw [hfields]; exact hbsup
    have hct : c.travelTimer = none := by rw [hfields]; exact hbt
    have hcs : c.settleTimer = none := by rw [hfields]; exact hbs
    rw [heq, ← hcfg, ← hown]
    rw [← hown] at howner
    have hgap : CoilsFit { c with state := .gap, target := some t, entryTime := v.time } :=
      SameCoils.fit (x := c) ⟨rfl, rfl, rfl, rfl⟩ hfit'
    split
    · exact faultWith_kept (x := { c with state := .gap, target := some t, entryTime := v.time }) v _ hgap
    · split
      · exact enterTravel_kept (x := { c with state := .gap, target := some t, entryTime := v.time }) v t hgap
          (oppositeOn_of_off t hrest.pulse hrest.off) hcfault
          howner hcsup
      · exact ⟨lawful_gap (SameCoils.fit (x := c) ⟨rfl, rfl, rfl, rfl⟩ hfit') ⟨hrest.pulse, hrest.off⟩ rfl rfl hcfault
          howner rfl hct hcs hcsup, .runs rfl rfl rfl⟩
  · next ho => exact enterTravel_kept v t hfit (by simpa using ho) hbfault howner hbsup

/-- The fields of a lawful actuator that is neither OFF nor FAULTED. -/
structure Ready (x : Actuator) : Prop where
  fit : CoilsFit x
  fault : x.fault = none
  resting : x.state = .rest → x.target = none ∧ x.gapTimer = none ∧ x.travelTimer = none ∧ x.settleTimer = none ∧
    (x.supervised = true → x.position ≠ .u)
  supervised : x.moving = true → x.supervised = false
  owner : x.moving = true → x.owner ≠ .none
  gapTimer : x.state ≠ .gap → x.gapTimer = none

theorem Lawful.ready (h : Lawful x) (hoff : x.state ≠ .off) (hf : x.state ≠ .faulted) : Ready x := by
  have hm : x.managed = true := by
    by_contra hm
    exact hoff (h.1.1.mpr (by simpa using hm))
  have hfit := h.fit hm
  obtain ⟨⟨_, htarget, howner, hfault, _, _, hsup, hgap, hsettle, htravel, _, _⟩, _⟩ := h
  refine ⟨hfit, by simpa using mt hfault.mp hf, fun hr => ⟨?_, ?_, ?_, ?_, fun hs => (hsup hs).2⟩, fun hmv => ?_, howner,
    fun hg => by simpa using mt hgap.mp hg⟩
  · have := mt htarget.mp (by simp [Actuator.moving, hr])
    simpa using this
  · simpa using mt hgap.mp (by simp [hr])
  · by_contra ht
    have := htravel (Option.isSome_iff_ne_none.mpr ht)
    simp [hr] at this
  · simpa using mt hsettle.mp (by simp [hr])
  · by_contra hs
    have := (hsup (by simpa using hs)).1
    simp [Actuator.moving, this] at hmv

/-- A move starts with its owner set (R9 to R13). -/
theorem startMove_kept {o : Owner} (t : MoveTarget) (ho : o ≠ .none) (h : Ready x) :
    MoveKept o x.cfg (x.startMove v o t) := by
  obtain ⟨b, hb⟩ : ∃ b, b = ({ x with owner := o } : Actuator) := ⟨_, rfl⟩
  have hfit : CoilsFit b := hb ▸ SameCoils.fit (x := x) ⟨rfl, rfl, rfl, rfl⟩ h.fit
  have hcfg : b.cfg = x.cfg := by rw [hb]
  have hown : b.owner = o := by rw [hb]
  have hfault : b.fault = none := by rw [hb]; exact h.fault
  have hresting : b.state = .rest → b.target = none ∧ b.gapTimer = none ∧ b.travelTimer = none ∧ b.settleTimer = none ∧
    (b.supervised = true → b.position ≠ .u) := by rw [hb]; exact h.resting
  have heq : x.startMove v o t = if v.latched then b.faultWith v .drive else match t with
      | .release => b.releaseMove v
      | .extend => b.moveToward v .x
      | .retract => b.moveToward v .r := by
    rw [hb]
    rfl
  have htoward : ∀ e, MoveKept b.owner b.cfg (b.moveToward v e) := fun e => by
    unfold Actuator.moveToward
    split
    · next hat =>
      simp only [Bool.and_eq_true, beq_iff_eq] at hat
      obtain ⟨⟨hrest, _⟩, _⟩ := hat
      obtain ⟨htarget, hg, ht, hs, hsup⟩ := hresting hrest
      obtain ⟨la, lb, p, hhold⟩ := holdAt_fields e b
      have hfit' := holdAt_fit e hfit
      rw [hhold] at hfit' ⊢
      exact finish_kept (x := { b with lineA := la, lineB := lb, pulse := p }) hfit' hrest htarget hfault hg ht hs hsup
    · exact runMove_kept v e hfit hfault (by rw [hown]; exact ho)
  rw [heq, ← hcfg]
  split
  · rw [← hown]
    exact faultWith_kept v _ hfit
  · rw [← hown]
    cases t with
    | extend => exact htoward .x
    | retract => exact htoward .r
    | release =>
      obtain ⟨la, lb, p, hoffs⟩ := coilsOff_fields b.stopTimers
      have hfit' : CoilsFit b.stopTimers.coilsOff :=
        (coilsOff_fit (SameCoils.fit (x := b) (y := b.stopTimers) ⟨rfl, rfl, rfl, rfl⟩ hfit).managed).1
      have hrel : b.releaseMove v = Actuator.finish { b.stopTimers.coilsOff with
        state := .rest, position := .u, supervised := false, target := none,
        entryTime := if b.state == .rest then b.entryTime else v.time } := rfl
      rw [hrel, hoffs]
      rw [hoffs] at hfit'
      refine finish_kept (x := { b.stopTimers with
        lineA := la, lineB := lb, pulse := p, state := .rest, position := .u, supervised := false, target := none,
        entryTime := if b.state == .rest then b.entryTime else v.time })
        (SameCoils.fit (x := { b.stopTimers with lineA := la, lineB := lb, pulse := p }) ⟨rfl, rfl, rfl, rfl⟩ hfit')
        rfl rfl hfault rfl rfl rfl nofun

/-! ## The operations at expiries and sensor changes -/

/-- A lawful actuator that does nothing. -/
theorem silent_acted (h : Lawful x) : Acted x x.silent := by
  refine ⟨h, ?_, id⟩
  cases hm : x.moving with
  | true => exact .inl (.runs rfl rfl hm)
  | false => exact .inr ⟨hm, rfl, rfl, rfl, rfl⟩

theorem Lawful.gapTimer_none (h : Lawful x) (hs : x.state ≠ .gap) : x.gapTimer = none := by
  obtain ⟨⟨_, _, _, _, _, _, _, hgap, _⟩, _⟩ := h
  simpa using mt hgap.mp hs

theorem Lawful.settleTimer_none (h : Lawful x) (hs : x.state ≠ .settle) : x.settleTimer = none := by
  obtain ⟨⟨_, _, _, _, _, _, _, _, hsettle, _⟩, _⟩ := h
  simpa using mt hsettle.mp hs

theorem Lawful.target_some (h : Lawful x) (hm : x.moving = true) : ∃ t, x.target = some t :=
  Option.isSome_iff_exists.mp (h.1.2.1.mpr hm)

theorem gapExpired_acted (h : Lawful x) : Acted x (x.gapExpired v) := by
  by_cases hs : x.state = .gap
  · have hmoving : x.moving = true := by simp [Actuator.moving, hs]
    have hready := h.ready (by simp [hs]) (by simp [hs])
    obtain ⟨t, ht⟩ := h.target_some hmoving
    have heq : x.gapExpired v = ({ x with gapTimer := none } : Actuator).enterTravel v t := by
      simp [Actuator.gapExpired, hs, ht]
    rw [heq]
    have hpulse : x.pulse = none := by
      obtain ⟨⟨_, _, _, _, _, _, _, _, _, _, _, hpulse⟩, _⟩ := h
      by_contra hp
      exact (hpulse (Option.isSome_iff_ne_none.mpr hp)).2.1 hs
    have hkept := enterTravel_kept (x := { x with gapTimer := none }) v t
      (SameCoils.fit (x := x) ⟨rfl, rfl, rfl, rfl⟩ hready.fit)
      (oppositeOn_of_off (x := { x with gapTimer := none }) t hpulse fun hd => (h.2 hd).2.1 hs) hready.fault
      (hready.owner hmoving) (hready.supervised hmoving)
    exact ⟨hkept.law, .inl hkept.does, fun _ => hmoving⟩
  · have heq : x.gapExpired v = x.silent := by
      have hsame : ({ x with gapTimer := none } : Actuator) = x := by rw [← h.gapTimer_none hs]
      unfold Actuator.gapExpired
      split
      · next hgap _ => exact absurd hgap hs
      · rw [hsame]
    rw [heq]
    exact silent_acted h

theorem travelExpired_acted (h : Lawful x) : Acted x (x.travelExpired v) := by
  by_cases hs : x.state = .travel
  · have hmoving : x.moving = true := by simp [Actuator.moving, hs]
    have hready := h.ready (by simp [hs]) (by simp [hs])
    obtain ⟨t, ht⟩ := h.target_some hmoving
    have heq : x.travelExpired v = if x.cfg.sensing.has t then x.faultWith v .timeout
        else if x.senses v t.opposite then x.faultWith v .stuck else x.arrive v t false := by
      simp [Actuator.travelExpired, hs, ht]
    rw [heq]
    split
    · exact faultWith_acted v _ hready.fit
    · split
      · exact faultWith_acted v _ hready.fit
      · exact (arrive_kept v t false hready.fit hready.fault).acted hmoving
  · have heq : x.travelExpired v = ({ x with travelTimer := none } : Actuator).silent := by
      unfold Actuator.travelExpired
      split
      · next htravel _ => exact absurd htravel hs
      · rfl
    have hlaw : Lawful { x with travelTimer := none } := by
      obtain ⟨⟨hoff, htarget, howner, hfault, hfaulted, hoffs, hsup, hgap, hsettle, _, _, hpulse⟩, hcoil⟩ := h
      exact ⟨⟨hoff, htarget, howner, hfault, hfaulted, hoffs, hsup, hgap, hsettle, nofun, fun ht => absurd ht hs, hpulse⟩,
        hcoil⟩
    rw [heq]
    refine ⟨hlaw, ?_, id⟩
    cases hm : x.moving with
    | true => exact .inl (.runs rfl rfl hm)
    | false => exact .inr ⟨hm, rfl, rfl, rfl, rfl⟩

theorem settleExpired_acted (h : Lawful x) : Acted x (x.settleExpired v) := by
  by_cases hs : x.state = .settle
  · have hmoving : x.moving = true := by simp [Actuator.moving, hs]
    have hready := h.ready (by simp [hs]) (by simp [hs])
    obtain ⟨t, ht⟩ := h.target_some hmoving
    have heq : x.settleExpired v = x.arrive v t true := by simp [Actuator.settleExpired, hs, ht]
    rw [heq]
    exact (arrive_kept v t true hready.fit hready.fault).acted hmoving
  · have heq : x.settleExpired v = x.silent := by
      have hsame : ({ x with settleTimer := none } : Actuator) = x := by rw [← h.settleTimer_none hs]
      unfold Actuator.settleExpired
      split
      · next hsettle _ => exact absurd hsettle hs
      · rw [hsame]
    rw [heq]
    exact silent_acted h

/-- The coils change, the pulse goes: an actuator that is not in GAP stays lawful. -/
theorem lawful_recoil {la lb : Bool} (h : Lawful x) (hs : x.state ≠ .gap)
    (hfit : CoilsFit { x with lineA := la, lineB := lb, pulse := none }) :
    Lawful { x with lineA := la, lineB := lb, pulse := none } := by
  obtain ⟨⟨hoff, htarget, howner, hfault, hfaulted, hoffs, hsup, hgap, hsettle, htravel, htravels, _⟩, _⟩ := h
  exact ⟨⟨hoff, htarget, howner, hfault, hfaulted, hoffs, hsup, hgap, hsettle, htravel, htravels, nofun⟩,
    hfit.coilLaw fun hg => absurd hg hs⟩

theorem pulseExpired_acted (h : Lawful x) : Acted x x.pulseExpired := by
  unfold Actuator.pulseExpired
  cases hp : x.pulse with
  | none =>
    rw [cutPulse_none x hp]
    exact silent_acted h
  | some p =>
    obtain ⟨hkind, hgap, hfaulted⟩ := h.1.2.2.2.2.2.2.2.2.2.2.2 (by rw [hp]; rfl)
    have hm : x.managed = true := by simp [Actuator.managed, hkind, Kind.managed]
    obtain ⟨la, lb, hcut⟩ := cutPulse_fields x
    have hfit := (cutPulse_fit (h.fit hm)).1
    rw [hcut] at hfit ⊢
    refine ⟨lawful_recoil h hgap hfit, ?_, id⟩
    cases hmv : x.moving with
    | true => exact .inl (.runs rfl rfl hmv)
    | false => exact .inr ⟨hmv, rfl, rfl, rfl, rfl⟩

/-- Position and supervised from the sensors: supervised only at a known position (R6, R22). -/
theorem fromSensors_fields (x : Actuator) :
    ∃ p b, x.fromSensors v = { x with position := p, supervised := b } ∧ (b = true → p ≠ .u) := by
  unfold Actuator.fromSensors
  cases x.reading v with
  | x => exact ⟨.x, true, rfl, nofun⟩
  | r => exact ⟨.r, true, rfl, nofun⟩
  | u => exact ⟨.u, false, rfl, nofun⟩
  | conflict => exact ⟨.u, false, rfl, nofun⟩

/-- An actuator at rest that takes another position. -/
theorem lawful_replaced {p : Position} {b : Bool} (h : Lawful x) (hrest : x.state = .rest) (hp : b = true → p ≠ .u) :
    Lawful { x with position := p, supervised := b } := by
  have hready := h.ready (by simp [hrest]) (by simp [hrest])
  obtain ⟨htarget, hg, ht, hs, _⟩ := hready.resting hrest
  exact lawful_rest (SameCoils.fit (x := x) ⟨rfl, rfl, rfl, rfl⟩ hready.fit) hrest htarget hready.fault hg ht hs hp

theorem tracked_acted (h : Lawful x) (hrest : x.state = .rest) : Acted x (x.fromSensors v).silent := by
  obtain ⟨p, b, heq, hp⟩ := fromSensors_fields v x
  rw [heq]
  exact ⟨lawful_replaced h hrest hp, .inr ⟨by simp [Actuator.moving, hrest], rfl, rfl, rfl, rfl⟩, id⟩

theorem settleDrop_acted (h : Lawful x) (hs : x.state = .settle) : Acted x (x.settleDrop v) := by
  have hmoving : x.moving = true := by simp [Actuator.moving, hs]
  have hready := h.ready (by simp [hs]) (by simp [hs])
  unfold Actuator.settleDrop
  split
  · exact faultWith_acted v _ hready.fit
  · next ht =>
    refine ⟨lawful_travel (SameCoils.fit (x := x) ⟨rfl, rfl, rfl, rfl⟩ hready.fit) rfl (h.1.2.1.mpr hmoving) hready.fault
      (hready.owner hmoving) (hready.gapTimer (by simp [hs])) ?_ rfl (hready.supervised hmoving),
      .inl (.runs rfl rfl rfl), fun _ => hmoving⟩
    exact Option.isSome_iff_ne_none.mpr fun hnone => ht (Option.isNone_iff_eq_none.mpr hnone)

theorem sensorChanged_acted (e : End) (h : Lawful x) : Acted x (x.sensorChanged v e) := by
  unfold Actuator.sensorChanged
  split
  · exact silent_acted h
  · cases hs : x.state with
    | off | faulted => exact silent_acted h
    | gap =>
      have hready := h.ready (by simp [hs]) (by simp [hs])
      dsimp only
      split
      · exact faultWith_acted v _ hready.fit
      · exact silent_acted h
    | travel =>
      have hmoving : x.moving = true := by simp [Actuator.moving, hs]
      have hready := h.ready (by simp [hs]) (by simp [hs])
      dsimp only
      split
      · exact faultWith_acted v _ hready.fit
      · split
        · exact (enterSettle_kept v e hready.fit hready.fault (hready.owner hmoving) (hready.gapTimer (by simp [hs]))
            (hready.supervised hmoving)).acted hmoving
        · exact silent_acted h
    | settle =>
      have hready := h.ready (by simp [hs]) (by simp [hs])
      dsimp only
      split
      · exact faultWith_acted v _ hready.fit
      · split
        · exact settleDrop_acted v h hs
        · exact silent_acted h
    | rest =>
      have hready := h.ready (by simp [hs]) (by simp [hs])
      dsimp only
      split
      · unfold Actuator.restSupervised
        split
        · exact faultWith_acted v _ hready.fit
        · split
          · exact faultWith_acted v _ hready.fit
          · exact silent_acted h
      · exact tracked_acted v h hs

/-! ## The operations of mode control and of the bank latch -/

theorem enterRun_acted (h : Lawful x) : Acted x (x.enterRun v) := by
  by_cases hs : x.state = .rest
  · have hready := h.ready (by simp [hs]) (by simp [hs])
    have heq : x.enterRun v = if x.inConflict v then x.faultWith v .conflict else (x.fromSensors v).silent := by
      simp [Actuator.enterRun, hs]
    rw [heq]
    split
    · exact faultWith_acted v _ hready.fit
    · exact tracked_acted v h hs
  · have heq : x.enterRun v = x.silent := by simp [Actuator.enterRun, hs]
    rw [heq]
    exact silent_acted h

/-- Both coils of an actuator at rest go off, and its position may change. -/
theorem lawful_released {p : Position} {b : Bool} (h : Lawful x) (hrest : x.state = .rest) (hp : b = true → p ≠ .u) :
    Lawful { x.coilsOff with position := p, supervised := b } := by
  have hready := h.ready (by simp [hrest]) (by simp [hrest])
  obtain ⟨htarget, hg, ht, hs, _⟩ := hready.resting hrest
  obtain ⟨la, lb, q, hoff⟩ := coilsOff_fields x
  have hfit := (coilsOff_fit hready.fit.managed).1
  rw [hoff] at hfit ⊢
  exact lawful_rest (SameCoils.fit (x := { x with lineA := la, lineB := lb, pulse := q }) ⟨rfl, rfl, rfl, rfl⟩ hfit)
    hrest htarget hready.fault hg ht hs hp

theorem latchSet_acted (h : Lawful x) : Acted x (x.latchSet v) := by
  unfold Actuator.latchSet
  split
  · exact silent_acted h
  · next hidle =>
    simp only [Bool.or_eq_true, beq_iff_eq, not_or] at hidle
    obtain ⟨⟨_, hf⟩, hoff⟩ := hidle
    have hready := h.ready hoff hf
    split
    · exact faultWith_acted v _ hready.fit
    · next hfree =>
      have hrest : x.state = .rest := by
        simp only [Bool.or_eq_true, not_or] at hfree
        obtain ⟨hmoving, _⟩ := hfree
        cases hs : x.state <;> simp_all [Actuator.moving]
      obtain ⟨la, lb, q, hcoils⟩ := coilsOff_fields x
      refine ⟨lawful_released (p := .u) (b := false) h hrest nofun,
        .inr ⟨by simp [Actuator.moving, hrest], rfl, ?_, ?_, ?_⟩, fun hm => ?_⟩
      · show x.coilsOff.cfg = x.cfg
        rw [hcoils]
      · show x.coilsOff.owner = x.owner
        rw [hcoils]
      · show x.coilsOff.state = x.state
        rw [hcoils]
      · have hm' : x.coilsOff.moving = true := hm
        rw [hcoils] at hm'
        exact hm'

/-- Whatever happens to an actuator at an expiry or at a sensor keeps its law, and its owner is told. -/
theorem actOp_acted {f : View → Actuator → ActOut} (hf : ActOp f) (h : Lawful x) :
    Acted x (f v x) := by
  cases hf with
  | gap => exact gapExpired_acted v h
  | travel => exact travelExpired_acted v h
  | settle => exact settleExpired_acted v h
  | pulse => exact pulseExpired_acted h
  | sensor e => exact sensorChanged_acted v e h

/-! ## Stops and safe actions -/

/-- An actuator stopped: at rest with no owner. -/
structure Stopped (x y : Actuator) : Prop where
  law : Lawful y
  cfg : y.cfg = x.cfg
  owner : y.owner = .none
  state : y.state = .rest

/-- Any ready actuator comes to rest unowned under an action. -/
theorem stopWith_stopped (c : Machine.Action) (h : Ready x) : Stopped x (x.stopWith v c) := by
  obtain ⟨b, hb⟩ : ∃ b, b = ({ x.stopTimers with
    state := .rest, target := none, owner := .none, entryTime := v.time } : Actuator) := ⟨_, rfl⟩
  have hfit : CoilsFit b := hb ▸ SameCoils.fit (x := x) ⟨rfl, rfl, rfl, rfl⟩ h.fit
  have heq : x.stopWith v c = (b.applyAction c).fromSensors v := by
    rw [hb]
    rfl
  obtain ⟨la, lb, q, hact⟩ := applyAction_fields c b
  have hfit' := (applyAction_fit c hfit).1
  rw [hact] at hfit' heq
  obtain ⟨p, s, hsens, hp⟩ := fromSensors_fields v { b with lineA := la, lineB := lb, pulse := q }
  rw [hsens] at heq
  rw [heq, hb]
  rw [hb] at hfit'
  exact ⟨lawful_rest (SameCoils.fit (x := { x.stopTimers with
      state := .rest, target := none, owner := .none, entryTime := v.time, lineA := la, lineB := lb, pulse := q })
      ⟨rfl, rfl, rfl, rfl⟩ hfit') rfl rfl h.fault rfl rfl rfl hp, rfl, rfl, rfl⟩

theorem stop_stopped (h : Lawful x) (hm : x.moving = true) : Stopped x (x.stop v) := by
  have hready : Ready x :=
    h.ready (by intro hs; simp [Actuator.moving, hs] at hm) (by intro hs; simp [Actuator.moving, hs] at hm)
  have heq : x.stop v = x.stopWith v x.cfg.stopAction := by simp [Actuator.stop, hm]
  rw [heq]
  exact stopWith_stopped v _ hready

/-- An actuator at rest gives up its owner. -/
theorem lawful_unowned (h : Lawful x) (hm : x.moving = false) : Lawful { x with owner := .none } := by
  obtain ⟨⟨hoff, htarget, howner, hfault, hfaulted, hoffs, hrest⟩, hcoil⟩ := h
  have hstill : ({ x with owner := .none } : Actuator).moving = false := hm
  exact ⟨⟨hoff, htarget, fun hmv => absurd (hstill.symm.trans hmv) Bool.false_ne_true, hfault, fun _ => rfl,
    fun hs => ⟨rfl, (hoffs hs).2⟩, hrest⟩, hcoil⟩

/-- What the safe action leaves of an actuator, and what it reports. -/
structure SafeTaken (x : Actuator) (out : ActOut) : Prop where
  law : Lawful out.act
  cfg : out.act.cfg = x.cfg
  owner : ∀ l, out.act.owner ≠ .lane l
  report : out.report.lane? = none

theorem Moves.safe {x : Actuator} {out : ActOut} (h : MoveKept .safe x.cfg out) : SafeTaken x out := by
  obtain ⟨hlaw, hdoes⟩ := h
  cases hdoes with
  | runs hcfg howner hmoving => exact ⟨hlaw, hcfg, fun l => by simp [Actuator.silent, howner], rfl⟩
  | done hcfg howner hstate => exact ⟨hlaw, hcfg, fun l => by simp [howner, ownerKept], rfl⟩
  | failed c hcfg howner hstate => exact ⟨hlaw, hcfg, fun l => by simp [howner], rfl⟩

theorem safeMove_taken (t : End) (h : Lawful x) (hr : Ready x) : SafeTaken x (x.safeMove v t) := by
  unfold Actuator.safeMove
  split
  · next hmt =>
    simp only [Bool.and_eq_true] at hmt
    obtain ⟨⟨hoff, htarget, howner, hfault, hfaulted, hoffs, hrest⟩, hcoil⟩ := h
    refine ⟨⟨⟨hoff, htarget, fun _ => nofun, hfault, fun hs => ?_, fun hs => ?_, hrest⟩, hcoil⟩, rfl, nofun, rfl⟩
    · have hs' : x.state = .faulted := hs
      simp [Actuator.moving, hs'] at hmt
    · have hs' : x.state = .off := hs
      simp [Actuator.moving, hs'] at hmt
  · exact Moves.safe (startMove_kept v t.asMove nofun hr)

theorem safeStill_taken (c : Machine.Action) (h : Lawful x) (hr : Ready x) (hoff : x.state ≠ .off)
    (hf : x.state ≠ .faulted) : SafeTaken x (x.safeStill v c).silent := by
  unfold Actuator.safeStill
  split
  · obtain ⟨hlaw, hcfg, howner, _⟩ := stopWith_stopped v c hr
    exact ⟨hlaw, hcfg, fun l => by simp [Actuator.silent, howner], rfl⟩
  · next hm =>
    have hm' : x.moving = false := by simpa using hm
    have hrest : x.state = .rest := by cases hs : x.state <;> simp_all [Actuator.moving]
    cases c with
    | hold => exact ⟨lawful_unowned h hm', rfl, nofun, rfl⟩
    | release =>
      obtain ⟨htarget, hg, ht, hs, _⟩ := hr.resting hrest
      obtain ⟨la, lb, q, hcoils⟩ := coilsOff_fields x
      have hfit := (coilsOff_fit hr.fit.managed).1
      dsimp only
      rw [hcoils] at hfit ⊢
      obtain ⟨p, s, hsens, hp⟩ := fromSensors_fields v { x with lineA := la, lineB := lb, pulse := q, owner := .none }
      rw [hsens]
      exact ⟨lawful_rest (SameCoils.fit (x := { x with lineA := la, lineB := lb, pulse := q }) ⟨rfl, rfl, rfl, rfl⟩ hfit)
        hrest htarget hr.fault hg ht hs hp, rfl, nofun, rfl⟩

theorem safeAct_taken (h : Lawful x) : SafeTaken x (x.safeAct v) := by
  unfold Actuator.safeAct
  split
  · next hidle =>
    refine ⟨h, rfl, fun l => ?_, rfl⟩
    have hnone : x.owner = .none := by
      obtain ⟨⟨hoff, _, _, _, hfaulted, hoffs, _⟩, _⟩ := h
      simp only [Bool.or_eq_true, beq_iff_eq, Bool.not_eq_true'] at hidle
      obtain (hm | hf) | ho := hidle
      · exact (hoffs (hoff.mpr hm)).1
      · exact hfaulted hf
      · exact (hoffs ho).1
    simp [Actuator.silent, hnone]
  · next hidle =>
    simp only [Bool.or_eq_true, beq_iff_eq, not_or] at hidle
    obtain ⟨⟨_, hf⟩, hoff⟩ := hidle
    have hr := h.ready hoff hf
    cases x.cfg.safeAction with
    | hold => exact safeStill_taken v .hold h hr hoff hf
    | release => exact safeStill_taken v .release h hr hoff hf
    | extend => exact safeMove_taken v .x h hr
    | retract => exact safeMove_taken v .r h hr

end

/-! ## Configuration, clearing, lines and time -/

section

variable {x : Actuator}

/-- A configuration begins with both lines off, no timer and no owner: at rest, or OFF (R4, R7). -/
theorem configured_lawful (v : View) (c : ActConfig) (x : Actuator) :
    Lawful (x.configured v c) ∧ (x.configured v c).cfg = c ∧ (x.configured v c).owner = .none ∧
      (x.configured v c).moving = false := by
  unfold Actuator.configured
  dsimp only
  split
  · next hm =>
    obtain ⟨p, b, heq, hp⟩ := fromSensors_fields v { x with
      cfg := c, target := none, owner := .none, fault := none, entryTime := v.time, lineA := false, lineB := false,
      gapTimer := none, travelTimer := none, settleTimer := none, pulse := none, state := .rest }
    rw [heq]
    exact ⟨lawful_rest ⟨hm, nofun, nofun, nofun, nofun⟩ rfl rfl rfl rfl rfl rfl hp, rfl, rfl, rfl⟩
  · next hm =>
    refine ⟨⟨?_, fun _ => ⟨nofun, nofun, fun _ => ⟨nofun, nofun⟩⟩⟩, rfl, rfl, rfl⟩
    unfold ActuatorLaw
    simpa [Actuator.managed, Actuator.moving] using hm

/-- ACT_CLEAR brings a FAULTED actuator to rest (R26). -/
theorem cleared_lawful (v : View) (h : Lawful x) (hf : x.state = .faulted) :
    Lawful (x.cleared v) ∧ (x.cleared v).cfg = x.cfg ∧ (x.cleared v).owner = .none := by
  have hm : x.managed = true := by
    by_contra hm
    have := h.1.1.mpr (by simpa using hm)
    simp [hf] at this
  have hfit := h.fit hm
  obtain ⟨⟨_, htarget, _, _, howner, _, _, hgap, hsettle, htravel, _, _⟩, _⟩ := h
  obtain ⟨p, b, heq, hp⟩ := fromSensors_fields v { x with fault := none, state := .rest, entryTime := v.time }
  have hnone : x.target = none := by simpa using mt htarget.mp (by simp [Actuator.moving, hf])
  have hg : x.gapTimer = none := by simpa using mt hgap.mp (by simp [hf])
  have hs : x.settleTimer = none := by simpa using mt hsettle.mp (by simp [hf])
  have ht : x.travelTimer = none := by
    by_contra hsome
    have := htravel (Option.isSome_iff_ne_none.mpr hsome)
    simp [hf] at this
  unfold Actuator.cleared
  rw [heq]
  exact ⟨lawful_rest (SameCoils.fit (x := x) ⟨rfl, rfl, rfl, rfl⟩ hfit) rfl hnone rfl hg ht hs hp, rfl, howner hf⟩

/-- Direct lines are those of actuators without two coils: their levels are free. -/
theorem lawful_lines {la lb : Bool} (h : Lawful x) (hd : x.cfg.kind.double = true → la = x.lineA ∧ lb = x.lineB) :
    Lawful { x with lineA := la, lineB := lb } := by
  obtain ⟨hlaw, hcoil⟩ := h
  refine ⟨hlaw, fun hdouble => ?_⟩
  obtain ⟨rfl, rfl⟩ := hd hdouble
  exact hcoil hdouble

/-- Clearing the latch of its bank takes the coils of an actuator at rest (R119). -/
theorem unlatched_lawful (h : Lawful x) :
    Lawful (unlatched x) ∧ (unlatched x).cfg = x.cfg ∧ (unlatched x).owner = x.owner ∧ (unlatched x).state = x.state := by
  unfold unlatched
  split
  · next hrest =>
    simp only [Bool.and_eq_true, beq_iff_eq] at hrest
    obtain ⟨_, hs⟩ := hrest
    have hready := h.ready (by simp [hs]) (by simp [hs])
    obtain ⟨_, _, _, _, hsup⟩ := hready.resting hs
    obtain ⟨la, lb, q, hcoils⟩ := coilsOff_fields x
    have hlaw := lawful_released (p := x.position) (b := x.supervised) h hs hsup
    rw [hcoils] at hlaw ⊢
    exact ⟨hlaw, rfl, rfl, rfl⟩
  · exact ⟨h, rfl, rfl, rfl⟩

/-- The count of a tick runs the timers of an actuator (R128). -/
theorem tick_lawful (h : Lawful x) : Lawful x.tick := by
  have htimer : ∀ n : Timer, (Timer.tick n).isSome = n.isSome := fun n => by cases n <;> rfl
  obtain ⟨⟨hoff, htarget, howner, hfault, hfaulted, hoffs, hsup, hgap, hsettle, htravel, htravels, hpulse⟩, hcoil⟩ := h
  refine ⟨⟨hoff, htarget, howner, hfault, hfaulted, hoffs, hsup, ?_, ?_, ?_, ?_, ?_⟩, fun hd => ?_⟩
  · exact (Bool.eq_iff_iff.mp (htimer x.gapTimer)).trans hgap
  · exact (Bool.eq_iff_iff.mp (htimer x.settleTimer)).trans hsettle
  · exact fun ht => htravel ((htimer x.travelTimer).symm.trans ht)
  · exact fun hs => (htimer x.travelTimer).trans (htravels hs)
  · exact fun hp => hpulse (by simpa [Actuator.tick] using hp)
  · obtain ⟨hone, hrest, hpulsed⟩ := hcoil hd
    refine ⟨hone, hrest, fun hk => ?_⟩
    obtain ⟨hA, hB⟩ := hpulsed hk
    refine ⟨fun ha => ?_, fun hb => ?_⟩
    · obtain ⟨n, hn⟩ := hA ha
      exact ⟨n - 1, by simp [Actuator.tick, hn]⟩
    · obtain ⟨n, hn⟩ := hB hb
      exact ⟨n - 1, by simp [Actuator.tick, hn]⟩

end

/-! ## Whom a report concerns -/

/-- A report that concerns the owner `o` alone. -/
inductive ReportsTo (o : Owner) : Report → Prop
  | quiet : ReportsTo o .quiet
  | done : ReportsTo o (.done o)
  | failed (c : ActFault) : ReportsTo o (.failed o c)

section

variable (v : View) (t : End) (x : Actuator)

theorem finish_reportsTo : ReportsTo x.owner x.finish.report := by
  rw [finish_eq]
  exact .done

theorem enterSettle_reportsTo : ReportsTo x.owner (x.enterSettle v t).report := by
  unfold Actuator.enterSettle
  dsimp only
  split
  · exact .failed _
  · split
    · exact finish_reportsTo { x.stopTimers with
        state := .rest, position := t.position, supervised := true, target := none, entryTime := v.time }
    · exact .quiet

theorem enterTravel_reportsTo : ReportsTo x.owner (x.enterTravel v t).report := by
  unfold Actuator.enterTravel
  obtain ⟨la, lb, p, hfields⟩ : ∃ la lb p, Actuator.energise t { x with
      state := .travel, target := some t, entryTime := v.time, gapTimer := none,
      travelTimer := some x.cfg.travelLimit, settleTimer := none } = { x with
      state := .travel, target := some t, entryTime := v.time, gapTimer := none,
      travelTimer := some x.cfg.travelLimit, settleTimer := none, lineA := la, lineB := lb, pulse := p } := by
    unfold Actuator.energise
    cases x.cfg.kind <;> cases t <;> exact ⟨_, _, _, rfl⟩
  rw [hfields]
  dsimp only
  split
  · exact .failed _
  · split
    · exact enterSettle_reportsTo v t { x with
        state := .travel, target := some t, entryTime := v.time, gapTimer := none,
        travelTimer := some x.cfg.travelLimit, settleTimer := none, lineA := la, lineB := lb, pulse := p }
    · exact .quiet

theorem runMove_reportsTo : ReportsTo x.owner (x.runMove v t).report := by
  unfold Actuator.runMove
  dsimp only
  split
  · unfold Actuator.enterGap
    obtain ⟨la, lb, hcut⟩ := cutPulse_fields { x.stopTimers with supervised := false }
    obtain ⟨la', lb', hset⟩ := setCoil_fields t.opposite false
      { x.stopTimers with supervised := false, lineA := la, lineB := lb, pulse := none }
    rw [hcut, hset]
    dsimp only
    split
    · exact .failed _
    · split
      · exact enterTravel_reportsTo v t { x.stopTimers with
          supervised := false, lineA := la', lineB := lb', pulse := none, state := .gap, target := some t,
          entryTime := v.time }
      · exact .quiet
  · exact enterTravel_reportsTo v t { x.stopTimers with supervised := false }

theorem startMove_reportsTo (o : Owner) (target : MoveTarget) : ReportsTo o (x.startMove v o target).report := by
  have htoward : ∀ e, ReportsTo o (({ x with owner := o } : Actuator).moveToward v e).report := fun e => by
    unfold Actuator.moveToward
    split
    · obtain ⟨la, lb, p, hhold⟩ := holdAt_fields e { x with owner := o }
      rw [hhold]
      exact finish_reportsTo { x with owner := o, lineA := la, lineB := lb, pulse := p }
    · exact runMove_reportsTo v e { x with owner := o }
  unfold Actuator.startMove
  dsimp only
  split
  · exact .failed _
  · cases target with
    | extend => exact htoward .x
    | retract => exact htoward .r
    | release =>
      obtain ⟨la, lb, p, hoff⟩ := coilsOff_fields ({ x with owner := o } : Actuator).stopTimers
      dsimp only
      unfold Actuator.releaseMove
      rw [hoff]
      exact finish_reportsTo { x.stopTimers with
        owner := o, lineA := la, lineB := lb, pulse := p, state := .rest, position := .u, supervised := false,
        target := none, entryTime := if x.state == .rest then x.entryTime else v.time }

end

/-- A report to a jog, to a safe move or to no owner concerns no lane. -/
theorem ReportsTo.lane? {o : Owner} {r : Report} (h : ReportsTo o r) (ho : ∀ l, o ≠ .lane l) : r.lane? = none := by
  cases o with
  | lane l => exact absurd rfl (ho l)
  | none | jog | safe => cases h <;> rfl

end Sys2Proof.Proofs.ActuatorLaws
end

section
/-! PROOFS of the families 02 and 03, the law of the step pool (R36, R39) and that of the start queue (R67): what each turn of a
lane makes of its entry and of its steps. -/

namespace Sys2Proof.Proofs.QueueAndPool

open Sys2Proof.Machine Sys2Proof.Safety Sys2Proof.Proofs.LaneRequests Sys2Proof.Proofs.LaneResults
open Sys2Proof.Proofs.StepResults Sys2Proof.Proofs.LinesAndBanks Sys2Proof.Proofs.OperatingModes
open Sys2Proof.Proofs.MessageReference
open Sys2Proof.Proofs.EventRows Sys2Proof.Proofs.LinkLaws Sys2Proof.Proofs.ActuatorLaws

/-! ## What a turn of the part makes of its heart -/

/-- A turn of the part as its heart sees it. -/
inductive HeartTurn (s t : State) : Prop where
  | event {v : Env} {e : Event} (hs : Operating s) (he : Heart s.motion s.modes.mode v e)
      (hmotion : t.motion = (e.arbitrate v).m) (hmode : t.modes.mode = v.mode) (hreset : t.modes.inReset = none)
      (hopen : t.openEnd = none)
  | opens (l : LaneIx) (hs : Operating s) (hrun : s.modes.mode = .run) (hw : (s.motion.lane l).waits = true)
      (hmotion : t.motion = (s.event.joinQueue l).m) (hmodes : t.modes = s.modes) (hopen : t.openEnd = some l)
  | counts (hs : Operating s) (hmotion : t.motion = s.motion.tick.testReached (s.time + 1)) (hmodes : t.modes = s.modes)
      (hopen : t.openEnd = none)
  | aside (hmotion : t.motion = s.motion) (hmode : t.modes.mode = s.modes.mode)
      (hopen : t.openEnd = none ∨ t.openEnd = s.openEnd ∧ t.modes.inReset = s.modes.inReset)
  | cleared (hmotion : t.motion = .default ∨ ∃ v, t.motion = s.motion.restarted v) (hmode : t.modes.mode = .setup)
      (hopen : t.openEnd = none)

/-- The end of an event, whatever reply joins the transmit queue. -/
theorem event_heartTurn {s t : State} {b : Body} {fresh : Bool} {link : Link} (hs : Operating s) (hb : EventOf s b)
    (ht : t = State.beginNext fresh { b.s.settle (b.e.arbitrate b.s.env) with link := link }) : HeartTurn s t := by
  obtain ⟨_, _, _, _, hnext⟩ := beginNext_frame fresh { b.s.settle (b.e.arbitrate b.s.env) with link := link }
  rw [hnext] at ht
  subst ht
  exact .event hs hb.heart rfl rfl (hb.inReset.trans hs.1) (hb.openEnd.trans hs.2)

theorem turn_heartTurn {s t : State} (h : Turn s t) : HeartTurn s t := by
  cases h with
  | resetBegins => exact .aside rfl rfl (.inl rfl)
  | defaults => exact .cleared (.inl rfl) rfl rfl
  | restarts => exact .cleared (.inr ⟨_, rfl⟩) rfl rfl
  | aside h => exact .aside h.motion h.mode (.inr ⟨h.openEnd, h.inReset⟩)
  | together => exact .aside rfl rfl (.inl rfl)
  | opens l hs hrun hw => exact .opens l hs hrun hw rfl rfl rfl
  | counts hs => exact .counts hs rfl rfl hs.2
  | closes hs hb => exact event_heartTurn hs hb rfl
  | answers seq kind content hs _ hb => exact event_heartTurn hs hb rfl
  | refuses seq kind content hs _ hst =>
    obtain ⟨_, _, fresh, ht⟩ := answer_refused seq kind content s hst
    obtain ⟨_, _, _, _, hnext⟩ := beginNext_frame fresh { s with
      link := { s.link with seqRecord := _, replies := s.link.replies ++ [_] } }
    rw [ht, hnext]
    exact .aside rfl rfl (.inr ⟨rfl, rfl⟩)
  | replays frame hs => exact event_heartTurn hs (.empty s) rfl

/-! ## A lane and its entries -/

/-- The entries of a lane in a start queue. -/
def entries (queue : List QEntry) (l : LaneIx) : Nat := (queue.map (·.lane)).count l

theorem entries_append (q r : List QEntry) (l : LaneIx) : entries (q ++ r) l = entries q l + entries r l := by
  simp [entries]

theorem entries_nil (l : LaneIx) : entries [] l = 0 := rfl

theorem entries_single (q : QEntry) (l : LaneIx) : entries [q] l = if q.lane = l then 1 else 0 := by
  simp [entries, List.count_singleton]

theorem entries_eq_zero {queue : List QEntry} {l : LaneIx} : entries queue l = 0 ↔ ∀ q ∈ queue, q.lane ≠ l := by
  simp [entries, List.count_eq_zero]

theorem entries_filter_self (queue : List QEntry) (l : LaneIx) : entries (queue.filter fun q => q.lane ≠ l) l = 0 := by
  rw [entries_eq_zero]
  intro q hq
  simpa using (List.mem_filter.mp hq).2

theorem entries_cons (q : QEntry) (rest : List QEntry) (l : LaneIx) :
    entries (q :: rest) l = entries rest l + if q.lane = l then 1 else 0 := by
  simp [entries, List.count_cons]

theorem entries_filter_ne (queue : List QEntry) {l j : LaneIx} (hj : j ≠ l) :
    entries (queue.filter fun q => q.lane ≠ l) j = entries queue j := by
  induction queue with
  | nil => rfl
  | cons q rest ih =>
    by_cases hq : q.lane = l
    · rw [List.filter_cons_of_neg (by simp [hq]), ih, entries_cons, if_neg fun h => hj (h.symm.trans hq), Nat.add_zero]
    · rw [List.filter_cons_of_pos (by simp [hq]), entries_cons, entries_cons, ih]

/-- A lane's state, the count of its steps and that of its entries fit each other in a device mode (R67). -/
def Fits (mode : Mode) (state : LaneState) (steps n : Nat) : Prop :=
  n = (if state = .queued then 1 else 0) ∧ (state = .queued → steps ≠ 0 ∧ mode = .run)

/-- Every lane fits its entries. -/
def QueueFits (mode : Mode) (m : Motion) : Prop :=
  ∀ l, Fits mode (m.lane l).state (m.held l) (entries m.queue l)

/-- The entries of the pool, held and free (R36). -/
def poolTotal (m : Motion) : Nat := m.held 0 + m.held 1 + m.held 2 + m.held 3 + m.poolFree

theorem queueFits_iff (mode : Mode) (m : Motion) :
    QueueFits mode m ↔
      (mode ≠ .run → m.queue = []) ∧ (m.queue.map (·.lane)).Nodup ∧
        (∀ l, l ∈ m.queue.map (·.lane) ↔ (m.lane l).state = .queued) ∧
        ∀ l, (m.lane l).state = .queued → (m.lane l).steps ≠ [] := by
  constructor
  · intro h
    have hcount : ∀ l, (m.queue.map (·.lane)).count l = if (m.lane l).state = .queued then 1 else 0 := fun l => (h l).1
    refine ⟨fun hmode => ?_, List.nodup_iff_count_le_one.mpr fun l => ?_, fun l => ?_, fun l hq => ?_⟩
    · refine List.eq_nil_iff_forall_not_mem.mpr fun q hq => ?_
      have hzero := hcount q.lane
      rw [if_neg fun hst => hmode ((h q.lane).2 hst).2] at hzero
      exact List.count_eq_zero.mp hzero (List.mem_map_of_mem hq)
    · rw [hcount]
      split <;> omega
    · rw [← List.count_pos_iff, hcount]
      split <;> simp_all
    · exact List.ne_nil_of_length_pos (Nat.pos_of_ne_zero ((h l).2 hq).1)
  · rintro ⟨hempty, hnodup, hmem, hsteps⟩ l
    refine ⟨?_, fun hq => ⟨fun hz => hsteps l hq (List.length_eq_zero_iff.mp hz), ?_⟩⟩
    · split
      · next hq => exact List.count_eq_one_of_mem hnodup ((hmem l).mpr hq)
      · next hq => exact List.count_eq_zero.mpr fun hin => hq ((hmem l).mp hin)
    · by_contra hmode
      have hin := (hmem l).mpr hq
      rw [hempty hmode] at hin
      cases hin

/-! ## What an event keeps of the queue and the pool -/

/-- From `m` to `m'` every lane keeps fitting its entries, no entry of the pool is lost or made, and no lane passes
its depth. -/
structure Keeps (mode : Mode) (m m' : Motion) : Prop where
  fits : QueueFits mode m → QueueFits mode m'
  pool : poolTotal m' = poolTotal m
  depth : ∀ l, m.held l ≤ 32 → m'.held l ≤ 32

theorem Keeps.refl (mode : Mode) (m : Motion) : Keeps mode m m := ⟨id, rfl, fun _ => id⟩

theorem Keeps.trans {mode : Mode} {m m' m'' : Motion} (h : Keeps mode m m') (h' : Keeps mode m' m'') :
    Keeps mode m m'' :=
  ⟨fun hm => h'.fits (h.fits hm), h'.pool.trans h.pool, fun l hl => h'.depth l (h.depth l hl)⟩

theorem Keeps.foldl {mode : Mode} {α : Type} {f : Event → α → Event} (h : ∀ e x, Keeps mode e.m (f e x).m)
    (xs : List α) : ∀ e : Event, Keeps mode e.m (xs.foldl f e).m := by
  induction xs with
  | nil => exact fun e => .refl mode e.m
  | cons x xs ih => exact fun e => (h e x).trans (ih _)

/-- Hearts whose lanes agree in their states and in the counts of their steps, and whose queues agree in their lanes. -/
theorem Keeps.of_shape {m m' : Motion} (hstate : ∀ l, (m'.lane l).state = (m.lane l).state)
    (hheld : ∀ l, m'.held l = m.held l) (hqueue : m'.queue.map (·.lane) = m.queue.map (·.lane))
    (hpool : m'.poolFree = m.poolFree) (mode : Mode) : Keeps mode m m' := by
  refine ⟨fun h l => ?_, ?_, fun l hl => (hheld l).trans_le hl⟩
  · rw [hstate, hheld]
    unfold entries
    rw [hqueue]
    exact h l
  · simp only [poolTotal, hheld, hpool]

theorem Keeps.of_same {m m' : Motion} (hlanes : m'.lanes = m.lanes) (hqueue : m'.queue = m.queue)
    (hpool : m'.poolFree = m.poolFree) (mode : Mode) : Keeps mode m m' :=
  .of_shape (fun l => congrArg (fun v : Vector Lane 4 => (v.get l).state) hlanes)
    (fun l => congrArg (fun v : Vector Lane 4 => (v.get l).steps.length) hlanes) (by rw [hqueue]) hpool mode

/-- One lane acts: no other lane changes, nor the entries of another. -/
theorem Keeps.of_lane {mode : Mode} {m m' : Motion} (l : LaneIx) (hothers : ∀ j, j ≠ l → m'.lane j = m.lane j)
    (hentries : ∀ j, j ≠ l → entries m'.queue j = entries m.queue j)
    (hfits : Fits mode (m.lane l).state (m.held l) (entries m.queue l) →
      Fits mode (m'.lane l).state (m'.held l) (entries m'.queue l))
    (hpool : m'.held l + m'.poolFree = m.held l + m.poolFree) (hdepth : m.held l ≤ 32 → m'.held l ≤ 32) :
    Keeps mode m m' := by
  have hheld : ∀ j, j ≠ l → m'.held j = m.held j := fun j hj => congrArg (fun ln : Lane => ln.steps.length) (hothers j hj)
  refine ⟨fun h j => ?_, ?_, fun j => ?_⟩
  · by_cases hj : j = l
    · subst hj
      exact hfits (h j)
    · rw [hothers j hj, hheld j hj, hentries j hj]
      exact h j
  · have h0 := hheld 0
    have h1 := hheld 1
    have h2 := hheld 2
    have h3 := hheld 3
    unfold poolTotal
    fin_cases l <;> simp_all <;> omega
  · by_cases hj : j = l
    · exact hj ▸ hdepth
    · rw [hheld j hj]
      exact id

/-! ## The turns of one lane -/

section

variable {mode : Mode} {l : LaneIx} {x : Lane} {free : Nat} {queue : List QEntry} {e : Event}

/-- One lane written, with the free count and the start queue. -/
theorem keeps_laneWritten (hentries : ∀ j, j ≠ l → entries queue j = entries e.m.queue j)
    (hfits : Fits mode (e.m.lane l).state (e.m.held l) (entries e.m.queue l) →
      Fits mode x.state x.steps.length (entries queue l))
    (hpool : x.steps.length + free = e.m.held l + e.m.poolFree) (hdepth : e.m.held l ≤ 32 → x.steps.length ≤ 32) :
    Keeps mode e.m (laneWritten l x free queue e).m := by
  have hlane : (laneWritten l x free queue e).m.lane l = x := lane_laneWritten ..
  have hheld : (laneWritten l x free queue e).m.held l = x.steps.length := congrArg (fun ln : Lane => ln.steps.length) hlane
  refine .of_lane l (fun j hj => lane_setLane_ne _ _ _ _ hj) hentries ?_ (by rw [hheld]; exact hpool)
    (by rw [hheld]; exact hdepth)
  rw [hlane, hheld]
  exact hfits

/-- A lane that keeps its place in the queue, its state and its steps. -/
theorem keeps_setLane (hstate : x.state = (e.m.lane l).state) (hsteps : x.steps.length = e.m.held l) :
    Keeps mode e.m (e.setLane l x).m := by
  refine keeps_laneWritten (free := e.m.poolFree) (queue := e.m.queue) (fun _ _ => rfl) (fun h => ?_) ?_
    hsteps.trans_le
  · rw [hstate, hsteps]
    exact h
  · rw [hsteps]

/-- A lane that leaves the queue for a state other than QUEUED. -/
theorem keeps_leaves (hstate : x.state ≠ .queued) (hpool : x.steps.length + free = e.m.held l + e.m.poolFree)
    (hdepth : x.steps.length ≤ e.m.held l) :
    Keeps mode e.m (laneWritten l x free (e.m.queue.filter fun q => q.lane ≠ l) e).m := by
  refine keeps_laneWritten (fun j hj => entries_filter_ne _ hj) (fun _ => ⟨?_, fun h => absurd h hstate⟩) hpool
    hdepth.trans
  rw [entries_filter_self, if_neg hstate]

/-- A lane without an entry takes another state than QUEUED. -/
theorem keeps_unqueued (hfrom : (e.m.lane l).state ≠ .queued) (hstate : x.state ≠ .queued)
    (hpool : x.steps.length + free = e.m.held l + e.m.poolFree) (hdepth : x.steps.length ≤ e.m.held l) :
    Keeps mode e.m (laneWritten l x free e.m.queue e).m := by
  refine keeps_laneWritten (fun _ _ => rfl) (fun h => ⟨?_, fun hq => absurd hq hstate⟩) hpool hdepth.trans
  rw [h.1, if_neg hfrom, if_neg hstate]

/-- The entries of a lane that evaluates its head. -/
theorem entries_entryOf (mode : Mode) (hs : x.steps ≠ []) (j : LaneIx) :
    entries (entryOf mode l x) j =
      if j = l then (if (evaluatedIn mode x).state = .queued then 1 else 0) else 0 := by
  rw [entryOf_eq_headEntry _ _ hs]
  have hlen := evaluatedIn_length mode x
  by_cases hq : (evaluatedIn mode x).state = .queued
  · cases hsteps : (evaluatedIn mode x).steps with
    | nil => rw [hsteps] at hlen; exact absurd (List.length_eq_zero_iff.mp hlen.symm) hs
    | cons g rest =>
      simp only [headEntry, hq, hsteps, if_true, List.head?_cons, Option.toList, List.map_cons, List.map_nil,
        entries_single, eq_comm]
  · simp only [hq, if_false, entries_nil, ite_self]

theorem evaluatedIn_queued_mode (hq : (evaluatedIn mode x).state = .queued) : mode = .run := by
  by_contra hm
  simp [evaluatedIn, hm, heldLane] at hq

/-- A lane, without an entry besides, evaluates the head of the steps it then holds. -/
theorem keeps_evaluated (hs : x.steps ≠ []) (hothers : ∀ j, j ≠ l → entries queue j = entries e.m.queue j)
    (hnone : Fits mode (e.m.lane l).state (e.m.held l) (entries e.m.queue l) → entries queue l = 0)
    (hpool : x.steps.length + free = e.m.held l + e.m.poolFree) (hdepth : e.m.held l ≤ 32 → x.steps.length ≤ 32) :
    Keeps mode e.m (laneWritten l (evaluatedIn mode x) free (queue ++ entryOf mode l x) e).m := by
  have hlen := evaluatedIn_length mode x
  refine keeps_laneWritten (fun j hj => ?_) (fun h => ⟨?_, fun hq => ⟨?_, evaluatedIn_queued_mode hq⟩⟩)
    (by rw [hlen]; exact hpool) (by rw [hlen]; exact hdepth)
  · rw [entries_append, entries_entryOf mode hs, if_neg hj, Nat.add_zero, hothers j hj]
  · rw [entries_append, entries_entryOf mode hs, if_pos rfl, hnone h, Nat.zero_add]
  · rw [hlen]
    exact fun hz => hs (List.length_eq_zero_iff.mp hz)

/-- A lane that has no entry and keeps its steps evaluates its head. -/
theorem keeps_evaluates (hs : x.steps ≠ []) (hfrom : (e.m.lane l).state ≠ .queued)
    (hpool : x.steps.length + free = e.m.held l + e.m.poolFree) (hdepth : e.m.held l ≤ 32 → x.steps.length ≤ 32) :
    Keeps mode e.m (laneWritten l (evaluatedIn mode x) free (e.m.queue ++ entryOf mode l x) e).m :=
  keeps_evaluated hs (fun _ _ => rfl) (fun h => by rw [h.1, if_neg hfrom]) hpool hdepth

end

/-! ## A lane that acts on its results -/

/-- What a lane can make of its results. -/
theorem actOnResults_cases (v : Env) (l : LaneIx) (e : Event) :
    e.actOnResults v l = e ∨ ∃ h rest, (e.m.lane l).state = .running ∧ (e.m.lane l).steps = h :: rest ∧
      ((∃ p ∈ h.results, p.2 = .failed) ∧ FailureTaken v l h rest e (e.actOnResults v l) ∨
        (∀ p ∈ h.results, p.2 = .done) ∧ Completes v l h rest e (e.actOnResults v l)) := by
  by_cases hr : (e.m.lane l).state = .running
  · cases hs : (e.m.lane l).steps with
    | nil => exact .inl (by simp [Event.actOnResults, hs])
    | cons h rest =>
      by_cases hf : ∃ p ∈ h.results, p.2 = .failed
      · exact .inr ⟨h, rest, hr, rfl, .inl ⟨hf, actOnResults_failed hr hs hf v⟩⟩
      · by_cases hd : ∀ p ∈ h.results, p.2 = .done
        · exact .inr ⟨h, rest, hr, rfl, .inr ⟨hd, actOnResults_done hr hs hd v⟩⟩
        · refine .inl (actOnResults_runs_on hr hs (fun p hp hfail => hf ⟨p, hp, hfail⟩) ?_ v)
          simpa using hd
  · exact .inl (actOnResults_of_not_running hr v)

theorem laneWithFailure_length (h : Machine.Step) (rest : List Machine.Step) (ln : Lane) :
    (laneWithFailure h rest ln).steps.length = rest.length + 1 := by
  unfold laneWithFailure
  split
  · split <;> rfl
  · rfl

theorem laneWithFailure_state (h : Machine.Step) (rest : List Machine.Step) {ln : Lane} (hr : ln.state = .running) :
    (laneWithFailure h rest ln).state = .running ∨ (laneWithFailure h rest ln).state = .faulted := by
  unfold laneWithFailure
  split
  · split
    · exact .inl hr
    · exact .inr rfl
  · exact .inr rfl

theorem goneOn_length (mode : Mode) (ln : Lane) : (goneOn mode ln).steps.length = ln.steps.length := by
  unfold goneOn
  split
  · rfl
  · split
    · rfl
    · exact evaluatedIn_length ..

theorem goneOn_queued {mode : Mode} {ln : Lane} (hq : (goneOn mode ln).state = .queued) :
    ln.steps ≠ [] ∧ mode = .run := by
  unfold goneOn at hq
  split at hq
  · cases hq
  · split at hq
    · cases hq
    · next hs => exact ⟨hs, evaluatedIn_queued_mode hq⟩

theorem completedLane_length (mode : Mode) (h : Machine.Step) (rest : List Machine.Step) (ln : Lane) :
    (completedLane mode h rest ln).steps.length = rest.length + if h.recirculate then 1 else 0 := by
  rw [← goneOn_counted, goneOn_length]
  cases h.recirculate <;> simp

theorem completedLane_queued {mode : Mode} {h : Machine.Step} {rest : List Machine.Step} {ln : Lane}
    (hq : (completedLane mode h rest ln).state = .queued) :
    (completedLane mode h rest ln).steps.length ≠ 0 ∧ mode = .run := by
  rw [← goneOn_counted] at hq ⊢
  obtain ⟨hs, hmode⟩ := goneOn_queued hq
  exact ⟨by rw [goneOn_length]; exact fun hz => hs (List.length_eq_zero_iff.mp hz), hmode⟩

theorem headEntry_entries {ln : Lane} (hs : ln.steps.length ≠ 0) (l j : LaneIx) :
    entries (headEntry l ln) j = if j = l then 1 else 0 := by
  cases hsteps : ln.steps with
  | nil => rw [hsteps] at hs; exact absurd rfl hs
  | cons g rest => simp [headEntry, hsteps, entries_single, eq_comm]

theorem keeps_failure {v : Env} {l : LaneIx} {h : Machine.Step} {rest : List Machine.Step} {e e' : Event}
    (hr : (e.m.lane l).state = .running) (hs : (e.m.lane l).steps = h :: rest) (hf : FailureTaken v l h rest e e')
    (mode : Mode) : Keeps mode e.m e'.m := by
  have hlength : e'.m.held l = e.m.held l := by
    unfold Motion.held
    rw [hf.lane, laneWithFailure_length, hs]
    rfl
  refine .of_lane l hf.others (fun j _ => by rw [hf.queue]) (fun hfits => ?_) (by rw [hlength, hf.poolFree])
    hlength.trans_le
  have hstate : (e'.m.lane l).state ≠ .queued := by
    rw [hf.lane]
    obtain h | h := laneWithFailure_state h rest hr <;> simp [h]
  refine ⟨?_, fun hq => absurd hq hstate⟩
  rw [hf.queue, hfits.1, if_neg hstate]
  simp [hr]

theorem keeps_completion {v : Env} {l : LaneIx} {h : Machine.Step} {rest : List Machine.Step} {e e' : Event}
    (hr : (e.m.lane l).state = .running) (hs : (e.m.lane l).steps = h :: rest) (hc : Completes v l h rest e e') :
    Keeps v.mode e.m e'.m := by
  have hheld : e.m.held l = rest.length + 1 := by simp [Motion.held, hs]
  have hlength : e'.m.held l = rest.length + if h.recirculate then 1 else 0 := by
    unfold Motion.held
    rw [hc.lane, completedLane_length]
  have hentries : ∀ j, entries e'.m.queue j = entries e.m.queue j +
      if j = l ∧ (e'.m.lane l).state = .queued then 1 else 0 := fun j => by
    rw [hc.queue, entries_append, hc.lane]
    by_cases hq : (completedLane v.mode h rest (e.m.lane l)).state = .queued
    · rw [if_pos hq, headEntry_entries (completedLane_queued hq).1]
      simp [hq]
    · rw [if_neg hq, entries_nil]
      simp [hq]
  refine .of_lane l hc.others (fun j hj => by rw [hentries, if_neg fun h => hj h.1, Nat.add_zero]) (fun hfits => ?_) ?_ ?_
  · refine ⟨?_, fun hq => ?_⟩
    · rw [hentries, hfits.1]
      simp [hr]
    · rw [hc.lane] at hq
      obtain ⟨hsteps, hmode⟩ := completedLane_queued hq
      refine ⟨?_, hmode⟩
      unfold Motion.held
      rw [hc.lane]
      exact hsteps
  · rw [hlength, hheld, hc.poolFree]
    cases h.recirculate
    · simp
      omega
    · simp
  · rw [hlength, hheld]
    cases h.recirculate
    · simp
      omega
    · simp

theorem keeps_actOnResults (v : Env) (l : LaneIx) (e : Event) : Keeps v.mode e.m (e.actOnResults v l).m := by
  obtain h | ⟨h, rest, hr, hs, ⟨_, hf⟩ | ⟨_, hc⟩⟩ := actOnResults_cases v l e
  · rw [h]
    exact .refl ..
  · exact keeps_failure hr hs hf _
  · exact keeps_completion hr hs hc

theorem keeps_record (mode : Mode) (l : LaneIx) (a : ActIx) (r : MoveResult) (e : Event) :
    Keeps mode e.m (e.record l a r).m := by
  unfold Event.record
  split
  · exact keeps_setLane (mapHead_state ..) (mapHead_length ..)
  · exact .refl ..

theorem keeps_takeReport (mode : Mode) (a : ActIx) (r : Report) (e : Event) : Keeps mode e.m (e.takeReport a r).m := by
  cases r with
  | quiet => exact .refl ..
  | done o =>
    cases o with
    | lane l => exact keeps_record ..
    | _ => exact .refl ..
  | failed o c =>
    cases o with
    | lane l => exact keeps_record mode l a .failed (e.raise (actFaultNotice a c))
    | _ => exact .refl ..

theorem keeps_setAct (mode : Mode) (a : ActIx) (x : Actuator) (e : Event) : Keeps mode e.m (e.setAct a x).m :=
  .of_same (m := e.m) (m' := (e.setAct a x).m) rfl rfl rfl mode

theorem keeps_actOnly (mode : Mode) (v : Env) (a : ActIx) (f : View → Actuator → ActOut) (e : Event) :
    Keeps mode e.m (e.actOnly v a f).m := (keeps_setAct mode a _ e).trans (keeps_takeReport mode a _ _)

theorem keeps_act (v : Env) (a : ActIx) (f : View → Actuator → ActOut) (e : Event) :
    Keeps v.mode e.m (e.act v a f).m := by
  have honly := keeps_actOnly v.mode v a f e
  unfold Event.act
  dsimp only
  split
  · exact honly
  · exact honly.trans (keeps_actOnResults ..)

/-! ## The arbiter -/

/-- The consumption of a mark changes the marks alone (R83). -/
theorem consumeMark_fields (c : StartCond) (e : Event) :
    ∃ marks, e.consumeMark c = { e with m := { e.m with marks := marks } } := by
  unfold Event.consumeMark
  cases c <;> exact ⟨_, rfl⟩

/-- A lane whose head starts (R46, items 1 and 2). -/
def begunLane (now : Time) (moves : List Move) (ln : Lane) : Lane :=
  { ln.mapHead (fun s => { s with
      run := .running, startTime := some now, firstFailed := none
      results := moves.map fun mv => (mv.act, .pending) }) with state := .running, delayTimer := none }

theorem begunLane_length (now : Time) (moves : List Move) (ln : Lane) :
    (begunLane now moves ln).steps.length = ln.steps.length := mapHead_length ..

/-- Items 1 to 3 of R78: the head leaves the queue, its mark is consumed, and its lane is RUNNING. -/
theorem begin_eq (v : Env) (l : LaneIx) (h : Machine.Step) (e : Event) :
    ∃ marks, ((e.leaveQueue l).consumeMark h.cond).beginRun v l h =
      { laneWritten l (begunLane v.time h.moves (e.m.lane l)) e.m.poolFree (e.m.queue.filter fun q => q.lane ≠ l)
          { e with m := { e.m with marks := marks } } with started := l :: e.started } := by
  obtain ⟨marks, hmarks⟩ := consumeMark_fields h.cond (e.leaveQueue l)
  rw [hmarks]
  exact ⟨marks, rfl⟩

theorem keeps_begins (mode : Mode) (v : Env) (l : LaneIx) (h : Machine.Step) (e : Event) :
    Keeps mode e.m (((e.leaveQueue l).consumeMark h.cond).beginRun v l h).m := by
  obtain ⟨marks, heq⟩ := begin_eq v l h e
  have hlen : (begunLane v.time h.moves (e.m.lane l)).steps.length = e.m.held l := begunLane_length ..
  have hmarked : Keeps mode e.m { e.m with marks := marks } :=
    .of_same (m := e.m) (m' := { e.m with marks := marks }) rfl rfl rfl mode
  rw [heq]
  exact hmarked.trans (keeps_leaves (e := { e with m := { e.m with marks := marks } }) nofun
    (congrArg (· + e.m.poolFree) hlen) hlen.le)

theorem keeps_startMoves (mode : Mode) (v : Env) (l : LaneIx) (moves : List Move) (e : Event) :
    Keeps mode e.m (e.startMoves v l moves).m := by
  unfold Event.startMoves
  exact Keeps.foldl (fun e mv => keeps_actOnly mode v mv.act _ e) moves e

theorem keeps_startLane (v : Env) (l : LaneIx) (e : Event) : Keeps v.mode e.m (e.startLane v l).m := by
  unfold Event.startLane
  split
  · exact .refl ..
  · next h _ _ =>
    exact (keeps_begins v.mode v l h e).trans ((keeps_startMoves v.mode v l h.moves _).trans (keeps_actOnResults v l _))

theorem keeps_startReady (v : Env) (n : Nat) : ∀ e : Event, Keeps v.mode e.m (e.startReady v n).m := by
  induction n with
  | zero => exact fun e => .refl ..
  | succ n ih =>
    intro e
    unfold Event.startReady
    split
    · exact .refl ..
    · exact (keeps_startLane v _ e).trans (ih _)

theorem keeps_arbitrate (v : Env) (e : Event) : Keeps v.mode e.m (e.arbitrate v).m := by
  unfold Event.arbitrate
  split
  · exact keeps_startReady v 4 e
  · exact .refl ..

/-! ## Requests of the lanes -/

theorem keeps_holdLane (mode : Mode) (l : LaneIx) {st : LaneState} (hst : st ≠ .queued) (e : Event) :
    Keeps mode e.m (e.holdLane l st).m := by
  rw [holdLane_eq]
  have hlen : (heldLane st (e.m.lane l)).steps.length = e.m.held l := mapHead_length ..
  exact keeps_leaves hst (by rw [hlen]) hlen.le

theorem keeps_keepSteps (mode : Mode) (l : LaneIx) {steps : List Machine.Step} {e : Event}
    (hsteps : steps.length ≤ e.m.held l) (hq : (e.m.lane l).state = .queued → steps ≠ []) :
    Keeps mode e.m (e.keepSteps l steps).m := by
  rw [keepSteps_eq (n := e.m.held l - steps.length) (by unfold Motion.held at *; omega)]
  refine keeps_laneWritten (fun _ _ => rfl) (fun h => ⟨h.1, fun hst => ⟨?_, (h.2 hst).2⟩⟩) ?_ hsteps.trans
  · exact fun hz => hq hst (List.length_eq_zero_iff.mp hz)
  · show steps.length + (e.m.poolFree + (e.m.held l - steps.length)) = _
    omega

theorem keeps_dropHead (v : Env) {l : LaneIx} {h : Machine.Step} {rest : List Machine.Step} {e : Event}
    (hs : (e.m.lane l).steps = h :: rest) : Keeps v.mode e.m (e.dropHead v l).m := by
  rw [dropHead_eq hs rfl]
  have hheld : e.m.held l = rest.length + 1 := by simp [Motion.held, hs]
  unfold headDropped
  dsimp only
  split
  · next hrest =>
    subst hrest
    have hnone : entryOf v.mode l { e.m.lane l with steps := [] } = [] := rfl
    rw [hnone, List.append_nil]
    exact keeps_leaves nofun (by simp [hheld]; omega) (by simp)
  · next hrest =>
    exact keeps_evaluated (x := { e.m.lane l with steps := rest }) hrest (fun j hj => entries_filter_ne _ hj)
      (fun _ => entries_filter_self ..) (by rw [hheld]; dsimp only; omega) (by rw [hheld]; dsimp only; omega)

theorem dropTag_length {tag : Tag} : ∀ {steps kept : List Machine.Step}, dropTag tag steps = some kept →
    steps.length = kept.length + 1
  | [], _, h => by cases h
  | g :: rest, kept, h => by
    unfold dropTag at h
    split at h
    · obtain rfl := Option.some.inj h
      rfl
    · obtain ⟨kept', hkept, rfl⟩ := Option.map_eq_some_iff.mp h
      simp [dropTag_length hkept]

theorem keeps_cancel {v : Env} {l : LaneIx} {tag : Tag} {e e' : Event} (hc : e.cancel v l tag = some e') :
    Keeps v.mode e.m e'.m := by
  unfold Event.cancel at hc
  split at hc
  · cases hc
  · next h rest hs =>
    have hheld : e.m.held l = rest.length + 1 := by simp [Motion.held, hs]
    split at hc
    · split at hc
      · next hp =>
        obtain rfl := Option.some.inj hc
        refine keeps_keepSteps v.mode l (by omega) fun hq => ?_
        rw [hq] at hp
        cases hp
      · obtain rfl := Option.some.inj hc
        exact keeps_dropHead v hs
    · obtain ⟨kept, hkept, rfl⟩ := Option.map_eq_some_iff.mp hc
      have hlen := dropTag_length hkept
      exact keeps_keepSteps v.mode l (by rw [hheld]; simp; omega) fun _ => List.cons_ne_nil _ _

theorem keeps_flush (mode : Mode) (l : LaneIx) (e : Event) : Keeps mode e.m (e.flush l).m := by
  have htake : ((e.m.lane l).steps.take 1).length ≤ e.m.held l := by simp [Motion.held]
  cases hst : (e.m.lane l).state with
  | running => simpa [Event.flush, hst] using keeps_keepSteps mode l htake (by simp [hst])
  | faulted => simpa [Event.flush, hst] using keeps_keepSteps mode l htake (by simp [hst])
  | paused => simpa [Event.flush, hst] using keeps_keepSteps mode l (steps := []) (Nat.zero_le _) (by simp [hst])
  | empty =>
    rw [flush_of_empty hst]
    exact .refl ..
  | waiting | queued =>
    rw [flush_of_waiting (by simp [hst])]
    refine keeps_leaves nofun ?_ (Nat.zero_le _)
    simp [Motion.held, Nat.add_comm]

/-- A lane that takes another state without an entry and keeps its steps. -/
theorem keeps_setLane_unqueued {mode : Mode} {l : LaneIx} {x : Lane} {e : Event}
    (hfrom : (e.m.lane l).state ≠ .queued) (hstate : x.state ≠ .queued) (hsteps : x.steps.length = e.m.held l) :
    Keeps mode e.m (e.setLane l x).m :=
  keeps_unqueued (free := e.m.poolFree) hfrom hstate (congrArg (· + e.m.poolFree) hsteps) hsteps.le

theorem keeps_pause {mode : Mode} {l : LaneIx} {e e' : Event} (hc : e.pause l = some e') : Keeps mode e.m e'.m := by
  cases hst : (e.m.lane l).state with
  | paused | faulted => simp [Event.pause, hst] at hc
  | empty =>
    obtain rfl : e.setLane l { e.m.lane l with state := .paused } = e' := by simpa [Event.pause, hst] using hc
    exact keeps_setLane_unqueued (by simp [hst]) nofun rfl
  | waiting | queued =>
    obtain rfl : e.holdLane l .paused = e' := by simpa [Event.pause, hst] using hc
    exact keeps_holdLane (st := .paused) mode l nofun e
  | running =>
    obtain rfl : e.setLane l { e.m.lane l with pausePending := true } = e' := by simpa [Event.pause, hst] using hc
    exact keeps_setLane rfl rfl

theorem keeps_abortStep (mode : Mode) (v : Env) {l : LaneIx} {e : Event} (hst : (e.m.lane l).state = .running) :
    Keeps mode e.m (e.abortStep v l).m := by
  cases hs : (e.m.lane l).steps with
  | nil =>
    have hnone : e.abortStep v l = e := by simp [Event.abortStep, hs]
    rw [hnone]
    exact .refl ..
  | cons h rest =>
    have ha := abortStep_aborts hs v
    have hlength : (e.abortStep v l).m.held l = e.m.held l := by
      unfold Motion.held
      rw [ha.lane, hs]
      rfl
    refine .of_lane l ha.others (fun j _ => by rw [ha.queue]) (fun hfits => ?_) (by rw [hlength, ha.poolFree])
      hlength.trans_le
    rw [ha.lane, ha.queue, hfits.1, hst]
    exact ⟨rfl, nofun⟩

theorem keeps_abort {mode : Mode} {v : Env} {l : LaneIx} {e e' : Event} (hc : e.abort v l = some e') :
    Keeps mode e.m e'.m := by
  cases hst : (e.m.lane l).state with
  | empty | paused | faulted => simp [Event.abort, hst] at hc
  | waiting | queued =>
    obtain rfl : e.holdLane l .paused = e' := by simpa [Event.abort, hst] using hc
    exact keeps_holdLane (st := .paused) mode l nofun e
  | running =>
    obtain rfl : e.abortStep v l = e' := by simpa [Event.abort, hst] using hc
    exact keeps_abortStep mode v hst

theorem keeps_evaluate (v : Env) {l : LaneIx} {e : Event} (hst : (e.m.lane l).state ≠ .queued) :
    Keeps v.mode e.m (e.evaluate v l).m := by
  by_cases hs : (e.m.lane l).steps = []
  · have hnone : e.evaluate v l = e := by simp [Event.evaluate, hs]
    rw [hnone]
    exact .refl ..
  · rw [evaluate_eq v l e (.inr hs)]
    exact keeps_evaluates (free := e.m.poolFree) hs hst rfl id

theorem dropHead_keeps (v : Env) (l : LaneIx) (e : Event) : Keeps v.mode e.m (e.dropHead v l).m := by
  cases hs : (e.m.lane l).steps with
  | nil =>
    have heq : e.dropHead v l = laneWritten l { e.m.lane l with steps := [], state := .empty, delayTimer := none }
        e.m.poolFree (e.m.queue.filter fun q => q.lane ≠ l) e := by
      have htail : ((e.leaveQueue l).m.lane l).steps.tail = [] := congrArg List.tail hs
      unfold Event.dropHead
      dsimp only
      rw [htail, leaveQueue_keepSteps (n := 0) (by simp [hs]), lane_laneWritten, setLane_laneWritten]
      rfl
    rw [heq]
    exact keeps_leaves nofun (by simp [Motion.held, hs]) (Nat.zero_le _)
  | cons h rest => exact keeps_dropHead v hs

theorem keeps_resume {v : Env} {l : LaneIx} {skip : Bool} {e e' : Event} (hc : e.resume v l skip = some e') :
    Keeps v.mode e.m e'.m := by
  cases hst : (e.m.lane l).state with
  | empty | waiting | queued | running => simp [Event.resume, hst] at hc
  | paused =>
    by_cases hs : (e.m.lane l).steps = []
    · rw [resume_of_paused_empty hst hs] at hc
      obtain rfl := Option.some.inj hc
      exact keeps_setLane_unqueued (by simp [hst]) nofun rfl
    · rw [resume_of_paused hst hs] at hc
      obtain rfl := Option.some.inj hc
      exact keeps_evaluates hs (by simp [hst]) rfl id
  | faulted =>
    cases skip with
    | true =>
      obtain rfl : (e.setLane l (e.m.lane l).faultGone).dropHead v l = e' := by simpa [Event.resume, hst] using hc
      have hgone : Keeps v.mode e.m (e.setLane l (e.m.lane l).faultGone).m :=
        keeps_setLane (x := (e.m.lane l).faultGone) rfl rfl
      exact hgone.trans (dropHead_keeps v l (e.setLane l (e.m.lane l).faultGone))
    | false =>
      obtain rfl : (e.setLane l ((e.m.lane l).faultGone.mapHead Step.again)).evaluate v l = e' := by
        simpa [Event.resume, hst] using hc
      have hagain : ((e.m.lane l).faultGone.mapHead Step.again).state = .faulted := (mapHead_state ..).trans hst
      refine (keeps_setLane (hagain.trans hst.symm) (mapHead_length ..)).trans (keeps_evaluate v ?_)
      rw [m_setLane, lane_setLane_self, hagain]
      exact nofun

theorem keeps_post (v : Env) {l : LaneIx} (h : Machine.Step) {e : Event} (hroom : e.m.held l < 32)
    (hfree : e.m.poolFree ≠ 0) : Keeps v.mode e.m (e.post v l h).m := by
  obtain ⟨x, hx⟩ : ∃ x, x = { e.m.lane l with steps := (e.m.lane l).steps ++ [reachedAt v.time h] } := ⟨_, rfl⟩
  have hlen : x.steps.length = e.m.held l + 1 := by
    rw [hx]
    exact List.length_append
  have hne : x.steps ≠ [] := List.ne_nil_of_length_eq_add_one hlen
  have hpool : x.steps.length + (e.m.poolFree - 1) = e.m.held l + e.m.poolFree := by omega
  have hdepth : e.m.held l ≤ 32 → x.steps.length ≤ 32 := by omega
  by_cases hst : (e.m.lane l).state = .empty
  · rw [post_alone hst hx]
    exact keeps_evaluates hne (by rw [hst]; exact nofun) hpool hdepth
  · rw [post_behind hst, ← hx]
    have hstate : x.state = (e.m.lane l).state := by rw [hx]
    refine keeps_laneWritten (fun _ _ => rfl) (fun hf => ?_) hpool hdepth
    rw [hstate]
    exact ⟨hf.1, fun hq => ⟨by omega, (hf.2 hq).2⟩⟩

/-! ## The halt order (R63, R64, R138) -/

/-- A lane as a halt leaves it, whether or not a RUNNING one holds its step. -/
def haltOutcome (ln : Lane) : Lane := if ln.state = .running ∧ ln.steps = [] then ln else haltedLane ln

/-- The notice of a lane that a halt finds RUNNING (R64). -/
def haltNotices (l : LaneIx) (ln : Lane) : List Raised :=
  if ln.state = .running then ln.steps.head?.toList.map fun h =>
    { cls := .laneFault, source := some l.val, detail := LaneFault.halted.code, tag := some h.tag }
  else []

theorem haltLane_eq (l : LaneIx) {e : Event} (hq : e.m.queue = []) :
    e.haltLane l = { e.setLane l (haltOutcome (e.m.lane l)) with
      raised := e.raised ++ haltNotices l (e.m.lane l) } := by
  have hhold : e.holdLane l .waiting = e.setLane l (heldLane .waiting (e.m.lane l)) := by
    rw [holdLane_eq, hq]
    unfold laneWritten
    rw [List.filter_nil, ← hq]
    rfl
  unfold Event.haltLane haltOutcome haltedLane haltNotices
  cases hst : (e.m.lane l).state with
  | running =>
    cases hs : (e.m.lane l).steps with
    | nil => simp [Event.faultLane, hs, Event.setLane]
    | cons h rest =>
      simp [Event.faultLane, hs, Event.setLane, Event.raise, mapHead_cons _ _ h rest hs]
  | waiting | queued => simp [hhold, Event.setLane]
  | empty | paused | faulted => simp [Event.setLane]

/-- With the start queue empty, the halt order reaches each lane by itself. -/
theorem foldl_haltLane (ls : List LaneIx) (hn : ls.Nodup) : ∀ e : Event, e.m.queue = [] →
    ∃ e', ls.foldl (fun e l => e.haltLane l) e = e' ∧ e'.m.queue = [] ∧ e'.m.acts = e.m.acts ∧
      e'.m.poolFree = e.m.poolFree ∧ e'.m.marks = e.m.marks ∧ e'.started = e.started ∧
      (∀ j, e'.m.lane j = if j ∈ ls then haltOutcome (e.m.lane j) else e.m.lane j) ∧
      e'.raised = e.raised ++ ls.flatMap fun l => haltNotices l (e.m.lane l) := by
  induction ls with
  | nil => exact fun e hq => ⟨e, rfl, hq, rfl, rfl, rfl, rfl, fun j => by simp, by simp⟩
  | cons l ls ih =>
    intro e hq
    obtain ⟨hl, hrest⟩ := List.nodup_cons.mp hn
    have hx := haltLane_eq l hq
    have hothers : ∀ j, j ≠ l → (e.haltLane l).m.lane j = e.m.lane j := fun j hj => by
      rw [hx]
      exact lane_setLane_ne _ _ _ _ hj
    have hself : (e.haltLane l).m.lane l = haltOutcome (e.m.lane l) := by
      rw [hx]
      exact lane_setLane_self ..
    obtain ⟨e', heq, hqueue, hacts, hpool, hmarks, hstarted, hlanes, hraised⟩ :=
      ih hrest (e.haltLane l) (by rw [hx]; exact hq)
    refine ⟨e', heq, hqueue, by rw [hacts, hx]; rfl, by rw [hpool, hx]; rfl, by rw [hmarks, hx]; rfl,
      by rw [hstarted, hx]; rfl, fun j => ?_, ?_⟩
    · rw [hlanes]
      by_cases hj : j = l
      · subst hj
        rw [if_neg hl, if_pos (List.mem_cons_self ..), hself]
      · rw [hothers j hj]
        simp [hj]
    · have hsame : (ls.flatMap fun j => haltNotices j ((e.haltLane l).m.lane j)) =
          ls.flatMap fun j => haltNotices j (e.m.lane j) :=
        List.flatMap_congr fun j hj => by rw [hothers j fun h => hl (h ▸ hj)]
      rw [hraised, hsame, hx]
      simp

/-- A safe action reports to no lane: the move it starts has owner SAFE (R28, R29). -/
theorem safeAct_lane? (v : View) (x : Actuator) : (x.safeAct v).report.lane? = none := by
  have hmove : ∀ t, (x.safeMove v t).report.lane? = none := fun t => by
    unfold Actuator.safeMove
    split
    · rfl
    · exact (startMove_reportsTo v x .safe t.asMove).lane? nofun
  unfold Actuator.safeAct
  split
  · rfl
  · cases x.cfg.safeAction with
    | hold | release => rfl
    | extend => exact hmove .x
    | retract => exact hmove .r

/-- What the halt order of mode control makes of an event. -/
structure HaltOrdered (v : Env) (e e' : Event) : Prop where
  queue : e'.m.queue = []
  act : ∀ a, e'.m.act a = ((e.m.act a).safeAct (v.view a)).act
  lane : ∀ l, e'.m.lane l = haltOutcome (e.m.lane l)
  poolFree : e'.m.poolFree = e.m.poolFree
  marks : e'.m.marks = e.m.marks
  started : e'.started = e.started
  raised : e'.raised = (e.raised ++ allLanes.flatMap fun l => haltNotices l (e.m.lane l)) ++
    allActs.flatMap fun a => ownNotices a ((e.m.act a).safeAct (v.view a))

theorem haltAll_ordered (v : Env) (e : Event) : HaltOrdered v e (e.haltAll v) := by
  obtain ⟨f, hf, hqueue, hacts, hpool, hmarks, hstarted, hlanes, hraised⟩ :=
    foldl_haltLane allLanes allLanes_nodup e.clearQueue rfl
  have hact : ∀ a, f.m.act a = e.m.act a := fun a => congrArg (·.get a) hacts
  obtain ⟨aacts, alanes, apool, aqueue, amarks, astarted, araised⟩ :=
    foldl_act v Actuator.safeAct allActs allActs_nodup f fun a _ l hl => by
      rw [safeAct_lane?] at hl
      cases hl
  have heq : e.haltAll v = allActs.foldl (fun e a => e.act v a Actuator.safeAct) f := by
    unfold Event.haltAll
    rw [hf]
  rw [heq]
  exact {
    queue := aqueue.trans hqueue
    act := fun a => (aacts a).trans ((if_pos (mem_allActs a)).trans (by rw [hact]))
    lane := fun l => (congrArg (·.get l) alanes).trans ((hlanes l).trans (if_pos (mem_allLanes l)))
    poolFree := apool.trans hpool
    marks := amarks.trans hmarks
    started := astarted.trans hstarted
    raised := by
      simp only [araised, hraised, hact]
      rfl }

/-! ## Entry to RUN and its leaving (R45, R135, R136) -/

/-- With no actuator owned, the actuators enter RUN each by itself, before the lanes. -/
theorem foldl_enterRun (w : Env) {e : Event} (ho : ∀ a, (e.m.act a).owner = .none) :
    ∃ f, allActs.foldl (fun e a => e.act w a Actuator.enterRun) e = f ∧
      (∀ a, f.m.act a = ((e.m.act a).enterRun (w.view a)).act) ∧ f.m.lanes = e.m.lanes ∧
      f.m.poolFree = e.m.poolFree ∧ f.m.queue = e.m.queue := by
  obtain ⟨hacts, hlanes, hpool, hqueue, _⟩ :=
    foldl_act w Actuator.enterRun allActs allActs_nodup e fun a _ l hl => by
      rw [enterRun_lane?_eq_none (ho a)] at hl
      cases hl
  exact ⟨_, rfl, fun a => (hacts a).trans (if_pos (mem_allActs a)), hlanes, hpool, hqueue⟩

/-- ENTER_SETUP from RUN empties the start queue and holds each lane by itself. -/
theorem foldl_leaveRun (e : Event) :
    ∃ f, allLanes.foldl (fun e l => e.dropLane l) e.clearQueue = f ∧ f.m.acts = e.m.acts ∧
      (∀ l, f.m.lane l = droppedLane (e.m.lane l)) ∧ f.m.poolFree = e.m.poolFree ∧ f.m.queue = [] := by
  obtain ⟨hacts, hlanes, hpool, hqueue, _⟩ :=
    foldl_lanes (fun l e => e.setLane l (droppedLane (e.m.lane l))) (fun _ => droppedLane) (fun _ _ => [])
      (fun l e => by simp [Event.setLane, Motion.setLane]) allLanes allLanes_nodup e.clearQueue
  rw [foldl_dropLane allLanes e.clearQueue rfl]
  exact ⟨_, rfl, hacts, fun l => (hlanes l).trans (if_pos (mem_allLanes l)), hpool,
    hqueue.trans (by simp [Event.clearQueue])⟩

/-! ## What the body of an event keeps of the queue and the pool -/

/-- From `m` in `mode` to `m'` in `mode'` every lane keeps fitting its entries, no entry of the pool is lost or made, and
no lane passes its depth. -/
structure Kept (mode mode' : Mode) (m m' : Motion) : Prop where
  fits : QueueFits mode m → QueueFits mode' m'
  pool : poolTotal m' = poolTotal m
  depth : ∀ l, m.held l ≤ 32 → m'.held l ≤ 32

theorem Keeps.kept {mode : Mode} {m m' : Motion} (h : Keeps mode m m') : Kept mode mode m m' := ⟨h.fits, h.pool, h.depth⟩

theorem Kept.trans {mode mode' : Mode} {m m' m'' : Motion} (h : Kept mode mode' m m') (h' : Keeps mode' m' m'') :
    Kept mode mode' m m'' :=
  ⟨fun hm => h'.fits (h.fits hm), h'.pool.trans h.pool, fun l hl => h'.depth l (h.depth l hl)⟩

/-- The start queue is emptied, and no lane stays QUEUED. -/
theorem Kept.of_cleared {mode mode' : Mode} {m m' : Motion} (hqueue : m'.queue = [])
    (hstate : ∀ l, (m'.lane l).state ≠ .queued) (hheld : ∀ l, m'.held l = m.held l) (hpool : m'.poolFree = m.poolFree) :
    Kept mode mode' m m' := by
  refine ⟨fun _ l => ⟨?_, fun hq => absurd hq (hstate l)⟩, by simp only [poolTotal, hheld, hpool], fun l hl =>
    (hheld l).trans_le hl⟩
  rw [hqueue, if_neg (hstate l)]
  rfl

theorem haltOutcome_fields (ln : Lane) :
    (haltOutcome ln).state ≠ .queued ∧ (haltOutcome ln).steps.length = ln.steps.length := by
  unfold haltOutcome
  split
  · next h => exact ⟨by simp [h.1], rfl⟩
  · unfold haltedLane
    split
    · exact ⟨nofun, mapHead_length ..⟩
    · exact ⟨nofun, mapHead_length ..⟩
    · exact ⟨nofun, mapHead_length ..⟩
    · next h => exact ⟨by simp [h], rfl⟩
    · next h => exact ⟨by simp [h], rfl⟩
    · next h => exact ⟨by simp [h], rfl⟩

theorem droppedLane_fields (ln : Lane) :
    (droppedLane ln).state ≠ .queued ∧ (droppedLane ln).steps.length = ln.steps.length := by
  unfold droppedLane
  split
  · exact ⟨nofun, mapHead_length ..⟩
  · next h => exact ⟨fun hq => h (.inr hq), rfl⟩

/-- The head of a lane that holds a step joins the start queue (R68). -/
theorem joinQueue_eq {l : LaneIx} {e : Event} (hs : (e.m.lane l).steps ≠ []) :
    e.joinQueue l = laneWritten l (queuedLane (e.m.lane l)) e.m.poolFree (e.m.queue ++ headEntry l (e.m.lane l)) e := by
  cases hsteps : (e.m.lane l).steps with
  | nil => exact absurd hsteps hs
  | cons h rest =>
    unfold Event.joinQueue queuedLane headEntry
    rw [hsteps]
    rfl

theorem joinQueue_nil {l : LaneIx} {e : Event} (hs : (e.m.lane l).steps = []) : e.joinQueue l = e := by
  simp [Event.joinQueue, hs]

theorem queuedLane_fields {ln : Lane} (hs : ln.steps ≠ []) :
    (queuedLane ln).state = .queued ∧ (queuedLane ln).steps.length = ln.steps.length := by
  unfold queuedLane
  split
  · next h => exact absurd h hs
  · next h => simp [h]

/-- The head of a lane without an entry joins the start queue. -/
theorem keeps_joinQueue {l : LaneIx} {e : Event} (hst : (e.m.lane l).state ≠ .queued) :
    Keeps .run e.m (e.joinQueue l).m := by
  by_cases hs : (e.m.lane l).steps = []
  · rw [joinQueue_nil hs]
    exact .refl ..
  · obtain ⟨hqueued, hlen⟩ := queuedLane_fields hs
    have hpos : (e.m.lane l).steps.length ≠ 0 := fun hz => hs (List.length_eq_zero_iff.mp hz)
    rw [joinQueue_eq hs]
    refine keeps_laneWritten (fun j hj => ?_) (fun hf => ⟨?_, fun _ => ⟨by rw [hlen]; exact hpos, rfl⟩⟩) (by rw [hlen]; rfl)
      hlen.trans_le
    · rw [entries_append, headEntry_entries hpos, if_neg hj, Nat.add_zero]
    · rw [entries_append, headEntry_entries hpos, if_pos rfl, hf.1, if_neg hst, if_pos hqueued]

theorem keeps_joinReached (v : Env) (l : LaneIx) (e : Event) : Keeps v.mode e.m (e.joinReached v l).m := by
  unfold Event.joinReached
  split
  · next h =>
    simp only [Bool.and_eq_true, beq_iff_eq] at h
    obtain ⟨hmode, htime⟩ := h
    rw [hmode]
    refine keeps_joinQueue fun hq => ?_
    rw [timeUp_eq] at htime
    simp [waitOver, hq] at htime
  · exact .refl ..

theorem keeps_wakeLane (v : Env) (l : LaneIx) (e : Event) : Keeps v.mode e.m (e.wakeLane v l).m := by
  unfold Event.wakeLane
  split
  · next hw => exact keeps_evaluate v (by rw [eq_of_beq hw]; exact nofun)
  · exact .refl ..

theorem entries_ne_zero_of_due {m : Motion} {l : LaneIx} (hd : m.limitDue l = true) : entries m.queue l ≠ 0 := by
  obtain ⟨q, hq, hdue⟩ := List.any_eq_true.mp hd
  simp only [Bool.and_eq_true, beq_iff_eq] at hdue
  exact fun hz => entries_eq_zero.mp hz q hq hdue.1

/-- The expiry of a start limit: the lane of the entry that leaves was QUEUED, and holds a step. -/
theorem keeps_limitOver (mode : Mode) {l : LaneIx} {e : Event} (hd : e.m.limitDue l = true) :
    Keeps mode e.m ((e.leaveQueue l).faultLane l .failed .startLimit none).m := by
  have hentry := entries_ne_zero_of_due hd
  cases hs : (e.m.lane l).steps with
  | nil =>
    have heq : (e.leaveQueue l).faultLane l .failed .startLimit none = e.leaveQueue l := by
      have : ((e.leaveQueue l).m.lane l).steps = [] := hs
      simp [Event.faultLane, this]
    rw [heq]
    refine .of_lane l (fun _ _ => rfl) (fun j hj => entries_filter_ne _ hj) (fun hf => ?_) rfl id
    by_cases hq : (e.m.lane l).state = .queued
    · exact absurd (by simp [Motion.held, hs]) (hf.2 hq).1
    · exact absurd (hf.1.trans (if_neg hq)) hentry
  | cons h rest =>
    obtain ⟨x, hx⟩ : ∃ x : Lane, x = { e.m.lane l with
      state := .faulted, steps := { h with run := .failed } :: rest, fault := some .startLimit, failedAct := none,
      pausePending := false, delayTimer := none } := ⟨_, rfl⟩
    have heq : ((e.leaveQueue l).faultLane l .failed .startLimit none).m =
        (laneWritten l x e.m.poolFree (e.m.queue.filter fun q => q.lane ≠ l) e).m := by
      have : ((e.leaveQueue l).m.lane l).steps = h :: rest := hs
      rw [hx]
      unfold Event.faultLane
      rw [this]
      rfl
    have hlen : x.steps.length = e.m.held l := by simp [hx, Motion.held, hs]
    rw [heq]
    exact keeps_leaves (by rw [hx]; exact nofun) (by rw [hlen]) hlen.le

theorem testPlace_fields (now : Time) (place : Nat) (ln : Lane) :
    (ln.testPlace now place).state = ln.state ∧ (ln.testPlace now place).steps.length = ln.steps.length :=
  ⟨rfl, List.length_modify ..⟩

theorem lane_testReached (m : Motion) (now : Time) (l : LaneIx) :
    (m.testReached now).lane l = { m.lane l with steps := (m.lane l).steps.map (Step.testReached now) } := by
  simp [Motion.testReached, Motion.lane, mapVec_get]

theorem keeps_testReached (mode : Mode) (m : Motion) (now : Time) : Keeps mode m (m.testReached now) := by
  refine .of_shape (m := m) (m' := m.testReached now) (fun l => ?_) (fun l => ?_) rfl rfl mode
  · rw [lane_testReached]
  · unfold Motion.held
    rw [lane_testReached]
    exact List.length_map ..

theorem lane_tick (m : Motion) (l : LaneIx) : m.tick.lane l = (m.lane l).tick := by
  simp [Motion.tick, Motion.lane, mapVec_get]

theorem keeps_tick (mode : Mode) (m : Motion) : Keeps mode m m.tick := by
  refine .of_shape (m := m) (m' := m.tick) (fun l => ?_) (fun l => ?_) ?_ rfl mode
  · rw [lane_tick]
    rfl
  · unfold Motion.held
    rw [lane_tick]
    rfl
  · simp [Motion.tick, QEntry.tick, Function.comp_def]

theorem heart_kept {m : Motion} {mode : Mode} {v : Env} {e : Event} (h : Heart m mode v e) : Kept mode v.mode m e.m := by
  induction h with
  | still he hv => exact hv ▸ he ▸ (Keeps.refl ..).kept
  | raise n _ ih => exact ih
  | acts a hf he hv => exact hv ▸ he ▸ (keeps_act ..).kept
  | jogs a target he hv => exact hv ▸ he ▸ (keeps_act ..).kept
  | latches k he hv =>
    subst hv he
    exact (Keeps.foldl (fun e a => keeps_act v a Actuator.latchSet e) (bankActs k) _).kept
  | @halts e he hv =>
    subst he
    have ho := haltAll_ordered v e
    refine .of_cleared ho.queue (fun l => ?_) (fun l => ?_) ho.poolFree
    · rw [ho.lane]
      exact (haltOutcome_fields _).1
    · unfold Motion.held
      rw [ho.lane]
      exact (haltOutcome_fields _).2
  | @delayOver e l he hv =>
    subst hv he
    exact (keeps_setLane (x := { e.m.lane l with delayTimer := none }) rfl rfl).kept
  | limitOver l he hv hd =>
    subst hv he
    exact (keeps_limitOver v.mode hd).kept
  | joins he hv =>
    subst hv he
    exact (Keeps.foldl (fun e l => keeps_joinReached v l e) allLanes _).kept
  | @timeTested e l now place he hv =>
    subst hv
    obtain ⟨hstate, hlen⟩ := testPlace_fields now place (m.lane l)
    have htested : Keeps v.mode m e.m := by
      rw [he]
      exact keeps_setLane (e := { e with m := m }) hstate hlen
    exact (htested.trans (keeps_joinReached v l e)).kept
  | @entersRun e w he hmode hw hv howner =>
    subst he
    obtain ⟨f, hf, _, hlanes, hpool, hqueue⟩ := foldl_enterRun w howner
    have hfold := Keeps.foldl (fun e l => keeps_wakeLane v l e) allLanes f
    have hsame : Keeps mode e.m f.m := .of_same hlanes hqueue hpool mode
    rw [hf]
    refine ⟨fun hfits => hfold.fits fun l => ?_, hfold.pool.trans hsame.pool, fun l hl =>
      hfold.depth l (hsame.depth l hl)⟩
    obtain ⟨hcount, hqueued⟩ := hsame.fits hfits l
    exact ⟨hcount, fun hq => absurd (hqueued hq).2 hmode⟩
  | @leavesRun e he hmode hv hrunning howner =>
    subst he
    obtain ⟨f, hf, _, hlanes, hpool, hqueue⟩ := foldl_leaveRun e
    rw [hf]
    refine .of_cleared hqueue (fun l => ?_) (fun l => ?_) hpool
    · rw [hlanes]
      exact (droppedLane_fields _).1
    · unfold Motion.held
      rw [hlanes]
      exact (droppedLane_fields _).2
  | leavesHalted he hmode hv =>
    subst he
    refine ⟨fun hfits l => ⟨(hfits l).1, fun hq => absurd ((hfits l).2 hq).2 ?_⟩, rfl, fun _ => id⟩
    rw [hmode]
    exact nofun
  | configures a c he hmode hv => exact hv ▸ he ▸ (keeps_setAct ..).kept
  | clears a he hv => exact hv ▸ he ▸ (keeps_setAct ..).kept
  | linesSet mask values he hv =>
    subst hv
    obtain ⟨hlanes, hpool, hqueue, _⟩ := writeLines_frame m mask values
    rw [he]
    exact (Keeps.of_same hlanes hqueue hpool _).kept
  | @latchCleared e s k hs he hv =>
    subst hv hs
    obtain ⟨hlanes, hpool, hqueue, _⟩ := clearLatch_frame k s
    rw [he]
    exact (Keeps.of_same hlanes hqueue hpool _).kept
  | @laneConfigured e l policy stop notice he hmode hv =>
    subst hv he
    exact (keeps_setLane (x := { e.m.lane l with
      policy := policy, cycleStop := stop, emptyNotice := notice, cycleCount := 0 }) rfl rfl).kept
  | posts l hp he hv hroom hfree =>
    subst hv he
    exact (keeps_post v _ hroom hfree).kept
  | cancels l tag he hv hc => exact hv ▸ he ▸ (keeps_cancel hc).kept
  | flushes l he hv => exact hv ▸ he ▸ (keeps_flush ..).kept
  | pauses l he hv hc => exact hv ▸ he ▸ (keeps_pause hc).kept
  | resumes l skip he hv hc => exact hv ▸ he ▸ (keeps_resume hc).kept
  | aborts l he hv hc => exact hv ▸ he ▸ (keeps_abort hc).kept
  | marks k b he hv =>
    subst hv
    rw [he]
    exact (Keeps.of_same (m := m) (m' := m.setMark k b) rfl rfl rfl _).kept
  | clockSet by_ now he hv =>
    subst hv
    rw [he]
    exact ((Keeps.of_same (m := m) (m' := m.shiftEntry by_) rfl rfl rfl _).trans (keeps_testReached ..)).kept

/-! ## The laws of the pool and of the start queue -/

/-- A heart that a reset or a restart leaves: no lane holds a step, the queue is empty and the pool whole. -/
structure Blank (m : Motion) : Prop where
  lane : ∀ l, (m.lane l).steps = [] ∧ (m.lane l).state = .empty
  queue : m.queue = []
  poolFree : m.poolFree = 64

theorem default_blank : Blank Motion.default := ⟨by decide, rfl, rfl⟩

theorem restarted_blank (v : Env) (m : Motion) : Blank (m.restarted v) := by
  obtain ⟨hlanes, hpool, hqueue, _⟩ := foldActs_frame (fun a x => x.configured (v.view a) x.cfg) allActs
    { m with lanes := mapVec Lane.emptied m.lanes, poolFree := Config.poolSize, queue := []
             marks := Vector.replicate 8 false }
  refine ⟨fun l => ?_, hqueue, hpool⟩
  have hlane : (m.restarted v).lane l = (m.lane l).emptied := by
    have hl : (m.restarted v).lanes = mapVec Lane.emptied m.lanes := hlanes
    simp [Motion.lane, hl]
  rw [hlane]
  exact ⟨rfl, rfl⟩

theorem Blank.held {m : Motion} (h : Blank m) (l : LaneIx) : m.held l = 0 := by
  simp [Motion.held, (h.lane l).1]

theorem poolLaw_iff (s : State) : PoolLaw s ↔ poolTotal s.motion = 64 ∧ ∀ l, s.motion.held l ≤ 32 := Iff.rfl

/-- From one mode to the other, or from anything to a blank heart, a turn keeps the queue and the pool. -/
theorem heartTurn_kept {s t : State} (h : HeartTurn s t) :
    Kept s.modes.mode t.modes.mode s.motion t.motion ∨ Blank t.motion := by
  cases h with
  | event hs he hmotion hmode =>
    left
    rw [hmotion, hmode]
    exact (heart_kept he).trans (keeps_arbitrate ..)
  | opens l hs hrun hw hmotion hmodes =>
    left
    rw [hmotion, hmodes, hrun]
    refine (keeps_joinQueue (e := s.event) fun hq => ?_).kept
    rw [m_event] at hq
    simp [Lane.waits, hq] at hw
  | counts hs hmotion hmodes =>
    left
    rw [hmotion, hmodes]
    exact ((keeps_tick ..).trans (keeps_testReached ..)).kept
  | aside hmotion hmode =>
    left
    rw [hmotion, hmode]
    exact (Keeps.refl ..).kept
  | cleared hmotion =>
    right
    obtain h | ⟨v, h⟩ := hmotion
    · exact h ▸ default_blank
    · exact h ▸ restarted_blank v s.motion

theorem turn_poolLaw {s t : State} (hs : PoolLaw s) (h : Turn s t) : PoolLaw t := by
  obtain ⟨htotal, hdepth⟩ := (poolLaw_iff s).mp hs
  refine (poolLaw_iff t).mpr ?_
  obtain hk | hb := heartTurn_kept (turn_heartTurn h)
  · exact ⟨hk.pool.trans htotal, fun l => hk.depth l (hdepth l)⟩
  · exact ⟨by simp [poolTotal, hb.held, hb.poolFree], fun l => by simp [hb.held]⟩

/-- An open end belongs to a lane that is QUEUED in RUN (log 24). -/
def OpenEndLaw (s : State) : Prop :=
  ∀ l, s.openEnd = some l → s.modes.inReset = none ∧ s.modes.mode = .run ∧ (s.motion.lane l).state = .queued

theorem startQueueLaw_iff (s : State) : StartQueueLaw s ↔ QueueFits s.modes.mode s.motion ∧ OpenEndLaw s := by
  rw [queueFits_iff]
  exact ⟨fun ⟨a, b, c, d, e⟩ => ⟨⟨a, b, c, d⟩, e⟩, fun ⟨⟨a, b, c, d⟩, e⟩ => ⟨a, b, c, d, e⟩⟩

theorem OpenEndLaw.of_none {s : State} (h : s.openEnd = none) : OpenEndLaw s := fun l hl => by
  cases h.symm.trans hl

theorem lane_joinQueue {l : LaneIx} {e : Event} (hs : (e.m.lane l).steps ≠ []) :
    ((e.joinQueue l).m.lane l).state = .queued := by
  rw [joinQueue_eq hs, lane_laneWritten]
  exact (queuedLane_fields hs).1

theorem turn_openEndLaw {s t : State} (hs : OpenEndLaw s) (h : HeartTurn s t) : OpenEndLaw t := by
  cases h with
  | event hs he hmotion hmode hreset hopen => exact .of_none hopen
  | counts hs hmotion hmodes hopen => exact .of_none hopen
  | cleared hmotion hmode hopen => exact .of_none hopen
  | opens l hs hrun hw hmotion hmodes hopen =>
    intro j hj
    obtain rfl : l = j := Option.some.inj (hopen.symm.trans hj)
    rw [hmodes, hmotion]
    refine ⟨hs.1, hrun, lane_joinQueue (e := s.event) fun hnil => ?_⟩
    rw [m_event] at hnil
    simp [Lane.waits, hnil] at hw
  | aside hmotion hmode hopen =>
    obtain hopen | ⟨hopen, hreset⟩ := hopen
    · exact .of_none hopen
    · intro l hl
      rw [hreset, hmode, hmotion]
      exact hs l (hopen.symm.trans hl)

theorem Blank.queueFits {m : Motion} (h : Blank m) (mode : Mode) : QueueFits mode m := fun l => by
  obtain ⟨_, hstate⟩ := h.lane l
  unfold Fits
  rw [hstate, h.queue]
  exact ⟨rfl, nofun⟩

theorem turn_startQueueLaw {s t : State} (hs : StartQueueLaw s) (h : Turn s t) : StartQueueLaw t := by
  obtain ⟨hfits, hopen⟩ := (startQueueLaw_iff s).mp hs
  have hturn := turn_heartTurn h
  refine (startQueueLaw_iff t).mpr ⟨?_, turn_openEndLaw hopen hturn⟩
  obtain hk | hb := heartTurn_kept hturn
  · exact hk.fits hfits
  · exact hb.queueFits _

/-- Settles O56: no turn of the part makes or loses an entry of the pool, or takes a lane past its depth. -/
theorem thePoolLawIsKept : Obligations.ThePoolLawIsKept :=
  fun _ _ hs hstep => step_keeps (fun _ _ => turn_poolLaw) (fun _ _ h => h) hs hstep

/-- Settles O57: every turn of the part keeps each lane's count of entries, and an open end's lane QUEUED. -/
theorem theStartQueueLawIsKept : Obligations.TheStartQueueLawIsKept :=
  fun _ _ hs hstep => step_keeps (fun _ _ => turn_startQueueLaw) (fun _ _ h => h) hs hstep

end Sys2Proof.Proofs.QueueAndPool
end

section
/-! PROOFS of the family 02, what the law of one lane allows (R39, R40, R43, R55): a lane whose steps have not started, and the
states it can take. -/

namespace Sys2Proof.Proofs.LaneLaws

open Sys2Proof.Machine Sys2Proof.Safety Sys2Proof.Proofs.LaneRequests Sys2Proof.Proofs.LaneResults
open Sys2Proof.Proofs.StepResults Sys2Proof.Proofs.OperatingModes Sys2Proof.Proofs.QueueAndPool
open Sys2Proof.Proofs.EventRows

/-! ## Steps that have not started -/

/-- A step that has no result, no start time and no first failure. -/
def Unstarted (h : Machine.Step) : Prop := h.results = [] ∧ h.startTime = none ∧ h.firstFailed = none

/-- What does not depend on how far a step has come: its moves. -/
def MovesLaw (h : Machine.Step) : Prop := 1 ≤ h.moves.length ∧ h.moves.length ≤ 8 ∧ (h.moves.map (·.act)).Nodup

theorem StepLaw.moves {h : Machine.Step} (hl : StepLaw h) : MovesLaw h := ⟨hl.1, hl.2.1, hl.2.2.1⟩

theorem StepLaw.unstarted {h : Machine.Step} (hl : StepLaw h) (hr : h.run = .held ∨ h.run = .waiting ∨ h.run = .queued) :
    Unstarted h := hl.2.2.2.1 hr

/-- A step that has not started and does not run keeps the law of a step. -/
theorem MovesLaw.unstarted {h : Machine.Step} (hm : MovesLaw h) (hu : Unstarted h) (hr : h.run ≠ .running) : StepLaw h :=
  ⟨hm.1, hm.2.1, hm.2.2, fun _ => hu, fun hrun => absurd hrun hr⟩

/-- A step that has ended asks nothing of its results. -/
theorem MovesLaw.ended {h : Machine.Step} (hm : MovesLaw h) (hr : h.run = .failed ∨ h.run = .aborted) : StepLaw h :=
  ⟨hm.1, hm.2.1, hm.2.2, fun hw => by obtain hr | hr := hr <;> simp [hr] at hw,
    fun hrun => by obtain hr | hr := hr <;> simp [hr] at hrun⟩

theorem again_law {h : Machine.Step} (hm : MovesLaw h) : StepLaw h.again ∧ Unstarted h.again :=
  have hu : Unstarted h.again := ⟨rfl, rfl, rfl⟩
  ⟨MovesLaw.unstarted (h := h.again) hm hu nofun, hu⟩

/-! ## Lanes whose steps have not started -/

/-- A lane with no step started, no pause pending and no fault. -/
structure Loose (ln : Lane) : Prop where
  steps : ∀ h ∈ ln.steps, StepLaw h ∧ Unstarted h
  tail : ∀ h ∈ ln.steps.tail, h.run = .held
  pause : ln.pausePending = false
  fault : ln.fault = none
  failedAct : ln.failedAct = none

theorem held_unstarted {mode : Mode} {ln : Lane} (h : LaneLaw mode ln) {g : Machine.Step} (hg : g ∈ ln.steps.tail) :
    StepLaw g ∧ Unstarted g ∧ g.run = .held := by
  obtain ⟨hsteps, htail, _⟩ := h
  have hl := hsteps g (List.mem_of_mem_tail hg)
  exact ⟨hl, StepLaw.unstarted hl (.inl (htail g hg)), htail g hg⟩

theorem LaneLaw.steps_ne_nil {mode : Mode} {ln : Lane} (h : LaneLaw mode ln) (he : ln.state ≠ .empty)
    (hp : ln.state ≠ .paused) : ln.steps ≠ [] := fun hs => by
  obtain ⟨_, _, hnone, _⟩ := h
  exact (hnone hs).elim he hp

theorem LaneLaw.steps_nil {mode : Mode} {ln : Lane} (h : LaneLaw mode ln) (he : ln.state = .empty) : ln.steps = [] := by
  obtain ⟨_, _, _, hhead, _⟩ := h
  cases hs : ln.steps with
  | nil => rfl
  | cons g rest =>
    have hfits := hhead g rest hs
    simp [headFits, he] at hfits

theorem LaneLaw.timer_none {mode : Mode} {ln : Lane} (h : LaneLaw mode ln) (hst : ln.state ≠ .waiting) :
    ln.delayTimer = none := by
  obtain ⟨_, _, _, _, _, _, _, hdelay⟩ := h
  by_contra hsome
  exact hst (hdelay (Option.isSome_iff_ne_none.mpr hsome)).1

/-- Neither RUNNING nor FAULTED, a lane has started no step. -/
theorem LaneLaw.loose {mode : Mode} {ln : Lane} (h : LaneLaw mode ln) (hr : ln.state ≠ .running)
    (hf : ln.state ≠ .faulted) : Loose ln := by
  have hlaw := h
  obtain ⟨hsteps, htail, _, hhead, hpause, hfault, hfailed, _⟩ := h
  have hnofault : ln.fault = none := by simpa using mt hfault.mp hf
  refine ⟨fun g hg => ⟨hsteps g hg, ?_⟩, htail, by simpa using mt hpause hr, hnofault, ?_⟩
  · cases hs : ln.steps with
    | nil =>
      rw [hs] at hg
      cases hg
    | cons k rest =>
      rw [hs] at hg
      obtain rfl | hg := List.mem_cons.mp hg
      · refine StepLaw.unstarted (hsteps g (by simp [hs])) ?_
        have hfits := hhead g rest hs
        unfold headFits at hfits
        cases hst : ln.state with
        | empty => simp [hst] at hfits
        | waiting =>
          simp only [hst] at hfits
          by_cases hm : mode = .run <;> simp [hfits, hm]
        | queued =>
          simp only [hst] at hfits
          exact .inr (.inr hfits)
        | running => exact absurd hst hr
        | paused =>
          simp only [hst] at hfits
          exact .inl hfits
        | faulted => exact absurd hst hf
      · exact (held_unstarted hlaw (by rw [hs]; exact hg)).2.1
  · by_contra hsome
    have := hfailed.mp (Option.isSome_iff_ne_none.mpr hsome)
    simp [hnofault] at this

/-- The states of a lane that has a step and has started none, with the run status of its head. -/
inductive HeadWaits (mode : Mode) : LaneState → RunStatus → Prop
  | waiting (hm : mode = .run) : HeadWaits mode .waiting .waiting
  | heldInWaiting (hm : mode ≠ .run) : HeadWaits mode .waiting .held
  | queued : HeadWaits mode .queued .queued
  | paused : HeadWaits mode .paused .held

/-- A lane that has started no step takes one of those states. -/
theorem Loose.law {mode : Mode} {ln : Lane} (hl : Loose ln) {h : Machine.Step} {rest : List Machine.Step}
    (hs : ln.steps = h :: rest) {st : LaneState} {run : RunStatus} {timer : Timer} (hw : HeadWaits mode st run)
    (htimer : timer.isSome = true → st = .waiting ∧ mode = .run ∧ ∃ d, h.cond = .delay d) :
    LaneLaw mode { ln with state := st, steps := { h with run := run } :: rest, delayTimer := timer } := by
  obtain ⟨hsteps, htail, hpause, hfault, hfailed⟩ := hl
  obtain ⟨hstep, hunstarted⟩ := hsteps h (by simp [hs])
  have hrun : run ≠ .running := by cases hw <;> exact nofun
  refine ⟨fun g hg => ?_, fun g hg => htail g (by rw [hs]; exact hg), nofun, fun g rest' hg => ?_, ?_, ?_, ?_,
    fun ht => ?_⟩
  · obtain rfl | hg := List.mem_cons.mp hg
    · exact MovesLaw.unstarted (h := { h with run := run }) (StepLaw.moves (h := h) hstep) hunstarted hrun
    · exact (hsteps g (by rw [hs]; exact List.mem_cons_of_mem _ hg)).1
  · obtain ⟨rfl, rfl⟩ := List.cons.inj hg
    cases hw <;> simp_all [headFits]
  · rw [show ({ ln with state := st, steps := { h with run := run } :: rest, delayTimer := timer } : Lane).pausePending =
      ln.pausePending from rfl, hpause]
    exact nofun
  · cases hw <;> simp [hfault]
  · simp [hfailed, hfault]
  · obtain ⟨hst, hm, d, hd⟩ := htimer ht
    exact ⟨hst, hm, _, d, _, rfl, hd⟩

/-- A lane without a step is EMPTY or PAUSED. -/
theorem Loose.law_nil {mode : Mode} {ln : Lane} (hl : Loose ln) (hs : ln.steps = []) (ht : ln.delayTimer = none)
    {st : LaneState} (hst : st = .empty ∨ st = .paused) : LaneLaw mode { ln with state := st } := by
  obtain ⟨hsteps, htail, hpause, hfault, hfailed⟩ := hl
  refine ⟨fun g hg => (hsteps g hg).1, htail, fun _ => hst, fun g rest hg => ?_, ?_, ?_, ?_, ?_⟩
  · cases hs.symm.trans hg
  · simp [hpause]
  · obtain rfl | rfl := hst <;> simp [hfault]
  · simp [hfault, hfailed]
  · simp [ht]

theorem Loose.evaluated {ln : Lane} (hl : Loose ln) (hs : ln.steps ≠ []) (mode : Mode) :
    LaneLaw mode (evaluatedIn mode ln) := by
  cases hsteps : ln.steps with
  | nil => exact absurd hsteps hs
  | cons h rest =>
    unfold evaluatedIn
    split
    · next hm =>
      unfold evaluatedLane
      rw [hsteps]
      dsimp only
      split
      · unfold queuedLane
        rw [hsteps]
        exact hl.law hsteps .queued nofun
      · refine hl.law hsteps (.waiting hm) fun ht => ⟨rfl, hm, ?_⟩
        cases hc : h.cond with
        | delay d => exact ⟨d, rfl⟩
        | next | onInput _ _ | onMark _ | atTime _ => simp [hc] at ht
    · next hm =>
      unfold heldLane
      rw [mapHead_cons _ _ _ _ hsteps]
      exact hl.law hsteps (.heldInWaiting hm) nofun

theorem Loose.held {ln : Lane} {mode : Mode} {st : LaneState} (hl : Loose ln) (hs : ln.steps ≠ [])
    (hw : HeadWaits mode st .held) : LaneLaw mode (heldLane st ln) := by
  cases hsteps : ln.steps with
  | nil => exact absurd hsteps hs
  | cons h rest =>
    unfold heldLane
    rw [mapHead_cons _ _ _ _ hsteps]
    exact hl.law hsteps hw nofun

theorem Loose.queues {ln : Lane} (hl : Loose ln) (hs : ln.steps ≠ []) (mode : Mode) : LaneLaw mode (queuedLane ln) := by
  cases hsteps : ln.steps with
  | nil => exact absurd hsteps hs
  | cons h rest =>
    unfold queuedLane
    rw [hsteps]
    exact hl.law hsteps .queued nofun

/-- A lane that has started no step and gives up its head. -/
theorem Loose.headDropped {ln : Lane} (hl : Loose ln) (mode : Mode) : LaneLaw mode (headDropped mode ln) := by
  unfold LaneRequests.headDropped
  split
  · next hs =>
    exact Loose.law_nil (ln := { ln with delayTimer := none }) ⟨hl.steps, hl.tail, hl.pause, hl.fault, hl.failedAct⟩ hs rfl
      (.inl rfl)
  · next hs => exact hl.evaluated hs mode

/-- The tail of a lane as a lane of its own, its fault and its pause gone. -/
theorem LaneLaw.tail_loose {mode : Mode} {ln x : Lane} (h : LaneLaw mode ln) {extra : List Machine.Step}
    (hsteps : x.steps = ln.steps.tail ++ extra) (hextra : ∀ g ∈ extra, StepLaw g ∧ Unstarted g ∧ g.run = .held)
    (hpause : x.pausePending = false) (hfault : x.fault = none) (hfailed : x.failedAct = none) : Loose x := by
  have hall : ∀ g ∈ x.steps, StepLaw g ∧ Unstarted g ∧ g.run = .held := fun g hg => by
    rw [hsteps] at hg
    obtain hg | hg := List.mem_append.mp hg
    · exact held_unstarted h hg
    · exact hextra g hg
  exact ⟨fun g hg => ⟨(hall g hg).1, (hall g hg).2.1⟩, fun g hg => (hall g (List.mem_of_mem_tail hg)).2.2, hpause,
    hfault, hfailed⟩

/-! ## Lanes that keep their head -/

/-- A lane that keeps its head, and of whose other steps some go and new ones come. -/
theorem LaneLaw.keeps_head {mode : Mode} {ln : Lane} (h : LaneLaw mode ln) {steps : List Machine.Step}
    (hhead : steps.head? = ln.steps.head?) (htail : ∀ g ∈ steps.tail, StepLaw g ∧ g.run = .held) :
    LaneLaw mode { ln with steps := steps } := by
  obtain ⟨hsteps, _, hnone, hfits, hpause, hfault, hfailed, hdelay⟩ := h
  cases steps with
  | nil =>
    have hs : ln.steps = [] := List.head?_eq_none_iff.mp hhead.symm
    exact ⟨fun _ hg => absurd hg List.not_mem_nil, fun _ hg => absurd hg List.not_mem_nil, fun _ => hnone hs,
      fun _ _ hg => absurd hg.symm (List.cons_ne_nil _ _), hpause, hfault, hfailed, fun ht => by
      obtain ⟨_, _, g, _, rest, hg, _⟩ := hdelay ht
      cases hs.symm.trans hg⟩
  | cons g rest =>
    cases hs : ln.steps with
    | nil =>
      rw [hs] at hhead
      cases hhead
    | cons k krest =>
      rw [hs] at hhead
      obtain rfl : g = k := Option.some.inj hhead
      refine ⟨fun j hj => ?_, fun j hj => (htail j hj).2, nofun, fun j rest' hj => ?_, hpause, hfault, hfailed,
        fun ht => ?_⟩
      · obtain rfl | hj := List.mem_cons.mp hj
        · exact hsteps j (by simp [hs])
        · exact (htail j hj).1
      · obtain ⟨rfl, rfl⟩ := List.cons.inj hj
        exact hfits _ _ hs
      · obtain ⟨hst, hm, j, d, rest', hj, hd⟩ := hdelay ht
        obtain ⟨rfl, rfl⟩ := List.cons.inj (hs.symm.trans hj)
        exact ⟨hst, hm, _, d, _, rfl, hd⟩

/-- The same steps, but for the reached indicators. -/
def SameSteps : List Machine.Step → List Machine.Step → Prop := List.Forall₂ fun h g => ∃ b, g = { h with reached := b }

/-- The same lane, but for the reached indicators and the count of its delay timer (R128, R131). -/
structure Aged (ln x : Lane) : Prop where
  eq : ∃ steps timer, x = { ln with steps := steps, delayTimer := timer } ∧ SameSteps ln.steps steps ∧
    timer.isSome = ln.delayTimer.isSome

theorem SameSteps.refl (steps : List Machine.Step) : SameSteps steps steps :=
  List.forall₂_same.mpr fun h _ => ⟨h.reached, rfl⟩

theorem SameSteps.exists_of_mem {steps steps' : List Machine.Step} (h : SameSteps steps steps') {g : Machine.Step}
    (hg : g ∈ steps') : ∃ k ∈ steps, ∃ b, g = { k with reached := b } := by
  induction h with
  | nil => cases hg
  | cons hkg _ ih =>
    obtain rfl | hg := List.mem_cons.mp hg
    · exact ⟨_, List.mem_cons_self .., hkg⟩
    · obtain ⟨k, hk, hb⟩ := ih hg
      exact ⟨k, List.mem_cons_of_mem _ hk, hb⟩

theorem SameSteps.tail {steps steps' : List Machine.Step} (h : SameSteps steps steps') : SameSteps steps.tail steps'.tail := by
  cases h with
  | nil => exact .nil
  | cons _ ht => exact ht

theorem SameSteps.cons_inv {steps rest' : List Machine.Step} {g : Machine.Step} (h : SameSteps steps (g :: rest')) :
    ∃ k rest b, steps = k :: rest ∧ g = { k with reached := b } := by
  obtain ⟨k, rest, ⟨b, hb⟩, _, rfl⟩ := List.forall₂_cons_right_iff.mp h
  exact ⟨k, rest, b, rfl, hb⟩

/-- The indicators and the timers run without the law of a lane. -/
theorem Aged.law {mode : Mode} {ln x : Lane} (ha : Aged ln x) (h : LaneLaw mode ln) : LaneLaw mode x := by
  obtain ⟨steps, timer, rfl, hsame, htimer⟩ := ha.eq
  obtain ⟨hsteps, htail, hnone, hfits, hpause, hfault, hfailed, hdelay⟩ := h
  refine ⟨fun g hg => ?_, fun g hg => ?_, fun hs => hnone ?_, fun g rest hg => ?_, hpause, hfault, hfailed, fun ht => ?_⟩
  · obtain ⟨k, hk, b, rfl⟩ := hsame.exists_of_mem hg
    exact hsteps k hk
  · obtain ⟨k, hk, b, rfl⟩ := hsame.tail.exists_of_mem hg
    exact htail k hk
  · have hs' : steps = [] := hs
    rw [hs'] at hsame
    exact List.forall₂_nil_right_iff.mp hsame
  · have hg' : steps = g :: rest := hg
    rw [hg'] at hsame
    obtain ⟨k, krest, b, hk, rfl⟩ := hsame.cons_inv
    exact hfits k krest hk
  · obtain ⟨hst, hm, k, d, krest, hk, hd⟩ := hdelay (htimer.symm.trans ht)
    rw [hk] at hsame
    obtain ⟨g, rest, ⟨b, rfl⟩, _, rfl⟩ := List.forall₂_cons_left_iff.mp hsame
    exact ⟨hst, hm, { k with reached := b }, d, rest, rfl, hd⟩

/-- A change of a step's reached indicator. -/
def ReachedOnly (f : Machine.Step → Machine.Step) : Prop := ∀ h, ∃ b, f h = { h with reached := b }

theorem testReached_only (now : Time) : ReachedOnly (Step.testReached now) := fun h => by
  unfold Step.testReached
  split
  · split
    · exact ⟨true, rfl⟩
    · exact ⟨h.reached, rfl⟩
  all_goals exact ⟨h.reached, rfl⟩

theorem SameSteps.map {f : Machine.Step → Machine.Step} (hf : ReachedOnly f) (steps : List Machine.Step) :
    SameSteps steps (steps.map f) := by
  induction steps with
  | nil => exact .nil
  | cons h rest ih => exact .cons (hf h) ih

theorem SameSteps.modify {f : Machine.Step → Machine.Step} (hf : ReachedOnly f) (steps : List Machine.Step) :
    ∀ place, SameSteps steps (steps.modify place f) := by
  induction steps with
  | nil =>
    intro place
    rw [List.modify_nil]
    exact .nil
  | cons h rest ih =>
    intro place
    cases place with
    | zero => exact .cons (hf h) (SameSteps.refl rest)
    | succ n => exact .cons ⟨h.reached, rfl⟩ (ih n)

theorem testPlace_aged (now : Time) (place : Nat) (ln : Lane) : Aged ln (ln.testPlace now place) :=
  ⟨_, ln.delayTimer, rfl, .modify (testReached_only now) _ _, rfl⟩

theorem testReached_aged (now : Time) (ln : Lane) : Aged ln { ln with steps := ln.steps.map (Step.testReached now) } :=
  ⟨_, ln.delayTimer, rfl, .map (testReached_only now) _, rfl⟩

theorem tick_aged (ln : Lane) : Aged ln ln.tick :=
  ⟨ln.steps, Timer.tick ln.delayTimer, rfl, .refl _, by cases ln.delayTimer <;> rfl⟩

/-! ## Changes of the mode -/

/-- The mode shows in a WAITING lane alone. -/
theorem LaneLaw.of_mode {mode mode' : Mode} {ln : Lane} (h : LaneLaw mode ln)
    (hw : ln.state = .waiting → (mode = .run ↔ mode' = .run)) : LaneLaw mode' ln := by
  obtain ⟨hsteps, htail, hnone, hfits, hpause, hfault, hfailed, hdelay⟩ := h
  refine ⟨hsteps, htail, hnone, fun g rest hg => ?_, hpause, hfault, hfailed, fun ht => ?_⟩
  · have hfit := hfits g rest hg
    unfold headFits at hfit ⊢
    cases hst : ln.state with
    | waiting =>
      simp only [hst] at hfit ⊢
      simpa only [hw hst] using hfit
    | empty => simp [hst] at hfit
    | queued | running | paused | faulted => simpa only [hst] using hfit
  · obtain ⟨hst, hm, hdelay⟩ := hdelay ht
    exact ⟨hst, (hw hst).mp hm, hdelay⟩

/-! ## Lanes that fault -/

/-- A lane that faults with its head kept. -/
theorem LaneLaw.faults {mode mode' : Mode} {ln : Lane} (h : LaneLaw mode ln) {g k : Machine.Step} {rest : List Machine.Step}
    (hs : ln.steps = g :: rest) (hmoves : k.moves = g.moves) {c : LaneFault} {failed : Option ActIx}
    (hrun : k.run = if c = .moveFailed ∨ c = .startLimit then .failed else .aborted)
    (hfailed : failed.isSome = true ↔ c = .moveFailed) :
    LaneLaw mode' { ln with
      state := .faulted, steps := k :: rest, fault := some c, failedAct := failed, pausePending := false
      delayTimer := none } := by
  have htail : ∀ j ∈ rest, StepLaw j ∧ Unstarted j ∧ j.run = .held := fun j hj => held_unstarted h (by rw [hs]; exact hj)
  have hmoves' : MovesLaw k := by
    unfold MovesLaw
    rw [hmoves]
    exact StepLaw.moves (h.1 g (by simp [hs]))
  have hended : k.run = .failed ∨ k.run = .aborted := by
    rw [hrun]
    split <;> simp
  refine ⟨fun j hj => ?_, fun j hj => (htail j hj).2.2, nofun, fun j rest' hj => ?_, nofun, by simp, by simpa using hfailed,
    nofun⟩
  · obtain rfl | hj := List.mem_cons.mp hj
    · exact hmoves'.ended hended
    · exact (htail j hj).1
  · obtain ⟨rfl, rfl⟩ := List.cons.inj hj
    simpa [headFits] using hrun

/-- A lane that has started no step, its head HELD, is PAUSED with or without a step. -/
theorem Loose.paused {ln : Lane} (hl : Loose ln) (hheld : ∀ h ∈ ln.steps, h.run = .held) (ht : ln.delayTimer = none)
    (mode : Mode) : LaneLaw mode { ln with state := .paused } := by
  cases hs : ln.steps with
  | nil => exact hs ▸ hl.law_nil hs ht (.inr rfl)
  | cons h rest =>
    have hlaw := hl.law (mode := mode) hs (timer := none) .paused nofun
    have hrun : ({ h with run := .held } : Machine.Step) = h := by rw [← hheld h (by simp [hs])]
    rw [hrun, ← ht] at hlaw
    exact hlaw

/-- The completion of a step leaves its lane PAUSED, EMPTY, or with its next head evaluated (R48 to R50). -/
theorem completedLane_law {mode : Mode} {ln : Lane} {h : Machine.Step} {rest : List Machine.Step} (hl : LaneLaw mode ln)
    (hstate : ln.state = .running) (hs : ln.steps = h :: rest) : LaneLaw mode (completedLane mode h rest ln) := by
  have htimer := LaneLaw.timer_none hl (by simp [hstate])
  have hfault : ln.fault = none := by
    obtain ⟨_, _, _, _, _, hfault, _⟩ := hl
    simpa [hstate] using mt hfault.mp
  have hfailed : ln.failedAct = none := by
    obtain ⟨_, _, _, _, _, _, hfailed, _⟩ := hl
    simpa [hfault] using mt hfailed.mp
  obtain ⟨extra, hextra⟩ : ∃ extra, extra = if h.recirculate then [h.again] else [] := ⟨_, rfl⟩
  have hlast : ∀ g ∈ extra, StepLaw g ∧ Unstarted g ∧ g.run = .held := fun g hg => by
    rw [hextra] at hg
    split at hg
    · obtain rfl := List.mem_singleton.mp hg
      obtain ⟨hlaw, hu⟩ := again_law (StepLaw.moves (hl.1 h (by simp [hs])))
      exact ⟨hlaw, hu, rfl⟩
    · cases hg
  have hgone := goneOn_counted mode h rest ln
  rw [← hextra] at hgone
  rw [← hgone]
  have hall : ∀ g ∈ rest ++ extra, StepLaw g ∧ Unstarted g ∧ g.run = .held := fun g hg => by
    obtain hg | hg := List.mem_append.mp hg
    · exact held_unstarted hl (by rw [hs]; exact hg)
    · exact hlast g hg
  have hloose : Loose { countedLane h ln with steps := rest ++ extra, pausePending := false } :=
    ⟨fun g hg => ⟨(hall g hg).1, (hall g hg).2.1⟩, fun g hg => (hall g (List.mem_of_mem_tail hg)).2.2, rfl, hfault, hfailed⟩
  unfold goneOn
  split
  · exact hloose.paused (fun g hg => (hall g hg).2.2) htimer mode
  · next hp =>
    have hpause : (countedLane h ln).pausePending = false := Bool.eq_false_of_not_eq_true hp
    have hsame : ({ countedLane h ln with steps := rest ++ extra, pausePending := false } : Lane) =
        { countedLane h ln with steps := rest ++ extra } := by rw [← hpause]
    rw [hsame] at hloose
    split
    · next hnil => exact hloose.law_nil hnil htimer (.inl rfl)
    · next hne => exact hloose.evaluated hne mode

end Sys2Proof.Proofs.LaneLaws
end

section
/-! PROOFS of the families 01 and 02, the law of the actuators with that of the lanes (R5, R7, R39, R46 to R54): what one
actuator, one lane and the start of a step keep of them. -/

namespace Sys2Proof.Proofs.HeartLaws

open Sys2Proof.Machine Sys2Proof.Safety Sys2Proof.Proofs.LaneRequests Sys2Proof.Proofs.LaneResults
open Sys2Proof.Proofs.StepResults Sys2Proof.Proofs.QueueAndPool Sys2Proof.Proofs.EventRows
open Sys2Proof.Proofs.ActuatorLaws Sys2Proof.Proofs.LaneLaws

/-! ## The law of the heart, in the midst of an event -/

/-- A move of a step that starts is still to be started: its result PENDING, its actuator at rest and free. -/
structure Waits (m : Motion) (p : ActIx × MoveResult) : Prop where
  pending : p.2 = .pending
  owner : (m.act p.1).owner = .none
  state : (m.act p.1).state = .rest

/-- A result of a step of lane `l` fits its actuator. -/
structure Recorded (m : Motion) (l : LaneIx) (p : ActIx × MoveResult) : Prop where
  pending : p.2 = .pending → (m.act p.1).moving = true ∧ (m.act p.1).owner = .lane l
  done : p.2 = .done → (m.act p.1).state = .rest ∧ (m.act p.1).owner = .lane l
  failed : p.2 = .failed → (m.act p.1).owner ≠ .lane l
  stopped : p.2 ≠ .stopped

/-- The results of a RUNNING step of lane `l`, the moves on the actuators `todo` still to be started. -/
structure ResultsFit (todo : List ActIx) (m : Motion) (l : LaneIx) (h : Machine.Step) : Prop where
  waits : ∀ p ∈ h.results, p.1 ∈ todo → Waits m p
  recorded : ∀ p ∈ h.results, p.1 ∉ todo → Recorded m l p
  firstFailed : h.firstFailed.isSome = true ↔ ∃ p ∈ h.results, p.2 = .failed

/-- A RUNNING lane has acted on the results of its step: the step goes on. -/
def Closed (policy : FaultPolicy) (h : Machine.Step) : Prop :=
  (∃ p ∈ h.results, p.2 = .pending) ∧ (policy = .stopAll → ∀ p ∈ h.results, p.2 ≠ .failed)

/-- The law of the actuators and of the lanes, where lane `o` has still to act on its results and to start the moves on
`todo`. -/
structure HeartLaw (mode : Mode) (o : Option LaneIx) (todo : List ActIx) (m : Motion) : Prop where
  acts : ∀ a, Lawful (m.act a)
  managed : StepsManaged m
  lanes : ∀ l, LaneLaw mode (m.lane l)
  results : ∀ l h rest, (m.lane l).state = .running → (m.lane l).steps = h :: rest →
    ResultsFit (if o = some l then todo else []) m l h ∧ (o ≠ some l → Closed (m.lane l).policy h)
  owners : ∀ a l, (m.act a).owner = .lane l → (m.lane l).state = .running ∧
    ∃ h rest, (m.lane l).steps = h :: rest ∧ ∃ p ∈ h.results, p.1 = a
  outside : mode ≠ .run → ∀ l, (m.lane l).state ≠ .running

/-- The law of the heart between events. -/
abbrev WholeLaw (mode : Mode) (m : Motion) : Prop := HeartLaw mode none [] m

theorem resultsLaw_iff (m : Motion) (l : LaneIx) (h : Machine.Step) :
    ResultsLaw m l h ↔ ResultsFit [] m l h ∧ Closed (m.lane l).policy h := by
  constructor
  · rintro ⟨hpending, hall, hfirst, hpolicy⟩
    refine ⟨⟨fun _ _ ht => absurd ht List.not_mem_nil, fun p hp _ => ?_, hfirst⟩, hpending, hpolicy⟩
    obtain ⟨hpend, hdone, hfailed, hstopped⟩ := hall p hp
    exact ⟨hpend, hdone, hfailed, hstopped⟩
  · rintro ⟨⟨_, hrec, hfirst⟩, hpending, hpolicy⟩
    refine ⟨hpending, fun p hp => ?_, hfirst, hpolicy⟩
    obtain ⟨hpend, hdone, hfailed, hstopped⟩ := hrec p hp List.not_mem_nil
    exact ⟨hpend, hdone, hfailed, hstopped⟩

theorem wholeLaw_iff (s : State) : WholeLaw s.modes.mode s.motion ↔ ActuatorsLaw s ∧ LanesLaw s := by
  constructor
  · intro h
    have howners : s.modes.mode ≠ .run → ∀ a l, (s.motion.act a).owner ≠ .lane l := fun hm a l ho =>
      h.outside hm l (h.owners a l ho).1
    refine ⟨⟨h.acts, h.managed⟩, h.lanes, fun l g rest hr hs => ?_, h.owners, fun hm => ⟨h.outside hm, howners hm⟩⟩
    obtain ⟨hfit, hclosed⟩ := h.results l g rest hr hs
    exact (resultsLaw_iff ..).mpr ⟨hfit, hclosed nofun⟩
  · rintro ⟨⟨hacts, hmanaged⟩, hlanes, hresults, howners, houtside⟩
    refine ⟨hacts, hmanaged, hlanes, fun l g rest hr hs => ?_, howners, fun hm => (houtside hm).1⟩
    obtain ⟨hfit, hclosed⟩ := (resultsLaw_iff ..).mp (hresults l g rest hr hs)
    exact ⟨hfit, fun _ => hclosed⟩

section

variable {mode mode' : Mode} {o : Option LaneIx} {m m' : Motion}

/-- A lane may act on its results once more. -/
theorem HeartLaw.reopen (h : WholeLaw mode m) (l : LaneIx) : HeartLaw mode (some l) [] m := by
  refine ⟨h.acts, h.managed, h.lanes, fun j g rest hr hs => ?_, h.owners, h.outside⟩
  obtain ⟨hfit, hclosed⟩ := h.results j g rest hr hs
  rw [if_neg nofun] at hfit
  rw [ite_self]
  exact ⟨hfit, fun _ => hclosed nofun⟩

/-- A lane that runs no step has no result to act on. -/
theorem HeartLaw.settled {l : LaneIx} (h : HeartLaw mode (some l) [] m)
    (hclosed : ∀ g rest, (m.lane l).state = .running → (m.lane l).steps = g :: rest → Closed (m.lane l).policy g) :
    WholeLaw mode m := by
  refine ⟨h.acts, h.managed, h.lanes, fun j g rest hr hs => ?_, h.owners, h.outside⟩
  obtain ⟨hfit, hother⟩ := h.results j g rest hr hs
  rw [ite_self] at hfit ⊢
  refine ⟨hfit, fun _ => ?_⟩
  by_cases hj : j = l
  · subst hj
    exact hclosed g rest hr hs
  · exact hother fun heq => hj (Option.some.inj heq).symm

/-- No lane runs a step, and none owns an actuator. -/
theorem HeartLaw.of_still (hacts : ∀ a, Lawful (m.act a)) (hmanaged : StepsManaged m) (hlanes : ∀ l, LaneLaw mode (m.lane l))
    (hrun : ∀ l, (m.lane l).state ≠ .running) (howner : ∀ a l, (m.act a).owner ≠ .lane l) : WholeLaw mode m :=
  ⟨hacts, hmanaged, hlanes, fun l _ _ hr => absurd hr (hrun l), fun a l ho => absurd ho (howner a l), fun _ => hrun⟩

/-! ## Changes that the results do not show -/

/-- For the lanes, `y` is owned as `x` is, and moves or rests as `x` does. -/
structure SameRole (x y : Actuator) : Prop where
  owner : ∀ l, y.owner = .lane l ↔ x.owner = .lane l
  moving : ∀ l, x.owner = .lane l → x.moving = true → y.moving = true
  rest : ∀ l, x.owner = .lane l → x.state = .rest → y.state = .rest

theorem SameRole.refl (x : Actuator) : SameRole x x := ⟨fun _ => Iff.rfl, fun _ _ => id, fun _ _ => id⟩

theorem SameRole.of_eq {x y : Actuator} (ho : y.owner = x.owner) (hs : y.state = x.state) : SameRole x y :=
  ⟨fun l => by rw [ho], fun _ _ => by simp only [Actuator.moving, hs]; exact id, fun _ _ => by rw [hs]; exact id⟩

theorem SameRole.of_unowned {x y : Actuator} (hx : ∀ l, x.owner ≠ .lane l) (hy : ∀ l, y.owner ≠ .lane l) : SameRole x y :=
  ⟨fun l => iff_of_false (hy l) (hx l), fun l h => absurd h (hx l), fun l h => absurd h (hx l)⟩

theorem Recorded.sameRole {l : LaneIx} {p : ActIx × MoveResult} (h : Recorded m l p)
    (hrole : SameRole (m.act p.1) (m'.act p.1)) : Recorded m' l p := by
  refine ⟨fun hp => ?_, fun hp => ?_, fun hp ho => h.failed hp ((hrole.owner l).mp ho), h.stopped⟩
  · obtain ⟨hmoving, howner⟩ := h.pending hp
    exact ⟨hrole.moving l howner hmoving, (hrole.owner l).mpr howner⟩
  · obtain ⟨hrest, howner⟩ := h.done hp
    exact ⟨hrole.rest l howner hrest, (hrole.owner l).mpr howner⟩

/-- `x` runs a step where `ln` does, with the same results and under the same policy. -/
structure RunsAlike (ln x : Lane) : Prop where
  state : x.state = .running ↔ ln.state = .running
  policy : ln.state = .running → x.policy = ln.policy
  head : ln.state = .running → ∀ h rest, ln.steps = h :: rest →
    ∃ g grest, x.steps = g :: grest ∧ g.results = h.results ∧ g.firstFailed = h.firstFailed

theorem RunsAlike.refl (ln : Lane) : RunsAlike ln ln := ⟨Iff.rfl, fun _ => rfl, fun _ _ _ hs => ⟨_, _, hs, rfl, rfl⟩⟩

theorem RunsAlike.of_not_running {ln x : Lane} (hx : x.state ≠ .running) (hln : ln.state ≠ .running) : RunsAlike ln x :=
  ⟨iff_of_false hx hln, fun h => absurd h hln, fun h => absurd h hln⟩

theorem RunsAlike.of_head {ln x : Lane} (hstate : x.state = ln.state) (hpolicy : x.policy = ln.policy)
    (hhead : x.steps.head? = ln.steps.head?) : RunsAlike ln x := by
  refine ⟨by rw [hstate], fun _ => hpolicy, fun _ h rest hs => ?_⟩
  rw [hs] at hhead
  obtain ⟨rest', hx⟩ := List.head?_eq_some_iff.mp hhead
  exact ⟨h, rest', hx, rfl, rfl⟩

theorem Aged.runsAlike {ln x : Lane} (ha : Aged ln x) : RunsAlike ln x := by
  obtain ⟨steps, timer, rfl, hsame, _⟩ := ha.eq
  refine ⟨Iff.rfl, fun _ => rfl, fun _ h rest hs => ?_⟩
  rw [hs] at hsame
  obtain ⟨g, grest, ⟨b, rfl⟩, _, rfl⟩ := List.forall₂_cons_left_iff.mp hsame
  exact ⟨_, _, rfl, rfl, rfl⟩

/-- Actuators of the same role and lanes that run alike keep the law of the results. -/
theorem HeartLaw.alike (h : HeartLaw mode o [] m) (hacts : ∀ a, Lawful (m'.act a)) (hmanaged : StepsManaged m')
    (hlanes : ∀ l, LaneLaw mode' (m'.lane l)) (hrole : ∀ a, SameRole (m.act a) (m'.act a))
    (hrun : ∀ l, RunsAlike (m.lane l) (m'.lane l)) (hmode : mode' ≠ .run → mode ≠ .run) : HeartLaw mode' o [] m' := by
  refine ⟨hacts, hmanaged, hlanes, fun l g grest hr hs => ?_, fun a l ho => ?_, fun hm l hr =>
    h.outside (hmode hm) l ((hrun l).state.mp hr)⟩
  · have hrunning := (hrun l).state.mp hr
    cases hsteps : (m.lane l).steps with
    | nil =>
      refine absurd hsteps (LaneLaw.steps_ne_nil (h.lanes l) ?_ ?_)
      · simp [hrunning]
      · simp [hrunning]
    | cons k krest =>
      obtain ⟨g', grest', hg, hresults, hfirst⟩ := (hrun l).head hrunning k krest hsteps
      obtain ⟨rfl, rfl⟩ := List.cons.inj (hg.symm.trans hs)
      obtain ⟨hfit, hclosed⟩ := h.results l k krest hrunning hsteps
      rw [ite_self] at hfit ⊢
      refine ⟨⟨fun _ _ ht => absurd ht List.not_mem_nil, fun p hp ht => ?_, ?_⟩, fun hne => ?_⟩
      · rw [hresults] at hp
        exact (hfit.recorded p hp ht).sameRole (hrole p.1)
      · rw [hresults, hfirst]
        exact hfit.firstFailed
      · unfold Closed
        rw [hresults, (hrun l).policy hrunning]
        exact hclosed hne
  · obtain ⟨hrunning, k, krest, hk, p, hp, hpa⟩ := h.owners a l (((hrole a).owner l).mp ho)
    obtain ⟨g, grest, hg, hresults, _⟩ := (hrun l).head hrunning k krest hk
    exact ⟨(hrun l).state.mpr hrunning, g, grest, hg, p, by rw [hresults]; exact hp, hpa⟩

/-! ## One actuator -/

theorem stepsManaged_congr (h : StepsManaged m) (hlanes : ∀ l, m'.lane l = m.lane l)
    (hcfg : ∀ a, (m'.act a).cfg = (m.act a).cfg) : StepsManaged m' := fun l g hg mv hmv => by
  rw [hlanes] at hg
  have hm := h l g hg mv hmv
  unfold Actuator.managed at hm ⊢
  rwa [hcfg]

/-- Actuators that change without a change of role, the lanes as they were. -/
theorem HeartLaw.acts_only (h : HeartLaw mode o [] m) (hlanes : ∀ l, m'.lane l = m.lane l)
    (hact : ∀ a, Lawful (m'.act a) ∧ (m'.act a).cfg = (m.act a).cfg ∧ SameRole (m.act a) (m'.act a)) :
    HeartLaw mode o [] m' :=
  h.alike (fun a => (hact a).1) (stepsManaged_congr h.managed hlanes fun a => (hact a).2.1)
    (fun l => by rw [hlanes]; exact h.lanes l) (fun a => (hact a).2.2) (fun l => by rw [hlanes]; exact .refl _) id

theorem HeartLaw.setAct (h : HeartLaw mode o [] m) {a : ActIx} {x : Actuator} (hx : Lawful x)
    (hcfg : x.cfg = (m.act a).cfg) (hrole : SameRole (m.act a) x) : HeartLaw mode o [] (m.setAct a x) := by
  refine h.acts_only (fun _ => rfl) fun b => ?_
  by_cases hb : b = a
  · subst hb
    rw [act_setAct_self]
    exact ⟨hx, hcfg, hrole⟩
  · rw [act_setAct_ne _ _ _ _ hb]
    exact ⟨h.acts b, rfl, .refl _⟩

/-! ## Reports -/

/-- Lane `l` runs the step `h`, with a result for actuator `a`. -/
structure RunsMove (m : Motion) (l : LaneIx) (a : ActIx) (h : Machine.Step) (rest : List Machine.Step) : Prop where
  running : (m.lane l).state = .running
  steps : (m.lane l).steps = h :: rest
  move : ∃ p ∈ h.results, p.1 = a

/-- A result recorded for actuator `a` (R47). -/
structure RecordsAt (a : ActIx) (r : MoveResult) (h g : Machine.Step) : Prop where
  same : g = { h with results := g.results, firstFailed := g.firstFailed }
  results : g.results = h.results.map fun p => if p.1 = a then (a, r) else p
  firstFailed : g.firstFailed.isSome = true ↔ h.firstFailed.isSome = true ∨ r = .failed

theorem doneAt_records (a : ActIx) (h : Machine.Step) : RecordsAt a .done h (doneAt a h) := ⟨rfl, rfl, by simp [doneAt]⟩

theorem failedAt_records (a : ActIx) (h : Machine.Step) : RecordsAt a .failed h (failedAt a h) :=
  ⟨rfl, rfl, by simp [failedAt]⟩

theorem RecordsAt.acts {a : ActIx} {r : MoveResult} {h g : Machine.Step} (hr : RecordsAt a r h g) :
    g.results.map (·.1) = h.results.map (·.1) := by
  rw [hr.results, List.map_map]
  refine List.map_congr_left fun p _ => ?_
  simp only [Function.comp]
  split
  · next ha => exact ha.symm
  · rfl

theorem RecordsAt.mem {a : ActIx} {r : MoveResult} {h g : Machine.Step} (hr : RecordsAt a r h g)
    {p : ActIx × MoveResult} (hp : p ∈ g.results) : p = (a, r) ∨ p.1 ≠ a ∧ p ∈ h.results := by
  rw [hr.results] at hp
  obtain ⟨q, hq, rfl⟩ := List.mem_map.mp hp
  by_cases ha : q.1 = a
  · exact .inl (if_pos ha)
  · rw [if_neg ha]
    exact .inr ⟨ha, hq⟩

theorem RecordsAt.mem_of_ne {a : ActIx} {r : MoveResult} {h g : Machine.Step} (hr : RecordsAt a r h g)
    {p : ActIx × MoveResult} (hp : p ∈ h.results) (hne : p.1 ≠ a) : p ∈ g.results := by
  rw [hr.results]
  exact List.mem_map.mpr ⟨p, hp, if_neg hne⟩

theorem RecordsAt.mem_self {a : ActIx} {r : MoveResult} {h g : Machine.Step} (hr : RecordsAt a r h g)
    (ha : ∃ p ∈ h.results, p.1 = a) : (a, r) ∈ g.results := by
  obtain ⟨p, hp, hpa⟩ := ha
  rw [hr.results]
  exact List.mem_map.mpr ⟨p, hp, if_pos hpa⟩

/-- A step keeps its law when a result is recorded. -/
theorem RecordsAt.stepLaw {a : ActIx} {r : MoveResult} {h g : Machine.Step} (hr : RecordsAt a r h g) (hl : StepLaw h)
    (hrun : h.run = .running) : StepLaw g := by
  obtain ⟨hone, height, hnodup, _, hrunning⟩ := hl
  have hacts := hr.acts
  rw [hr.same]
  refine ⟨hone, height, hnodup, fun hw => ?_, fun _ => ?_⟩
  · have hw' : h.run = .held ∨ h.run = .waiting ∨ h.run = .queued := hw
    simp [hrun] at hw'
  · obtain ⟨hmap, htime⟩ := hrunning hrun
    exact ⟨hacts.trans hmap, htime⟩

theorem LaneLaw.records {ln : Lane} {a : ActIx} {r : MoveResult} {h g : Machine.Step} {rest : List Machine.Step}
    (hl : LaneLaw mode ln) (hstate : ln.state = .running) (hs : ln.steps = h :: rest) (hr : RecordsAt a r h g) :
    LaneLaw mode { ln with steps := g :: rest } := by
  obtain ⟨hsteps, htail, _, hfits, hpause, hfault, hfailed, hdelay⟩ := hl
  have hrun : h.run = .running := by simpa [headFits, hstate] using hfits h rest hs
  have hgrun : g.run = h.run := by rw [hr.same]
  refine ⟨fun k hk => ?_, fun k hk => htail k (by rw [hs]; exact hk), nofun, fun k krest hk => ?_, hpause, hfault, hfailed,
    fun ht => ?_⟩
  · obtain rfl | hk := List.mem_cons.mp hk
    · exact hr.stepLaw (hsteps h (by simp [hs])) hrun
    · exact hsteps k (by rw [hs]; exact List.mem_cons_of_mem _ hk)
  · obtain ⟨rfl, rfl⟩ := List.cons.inj hk
    rw [hgrun]
    exact hfits h rest hs
  · have hw : ln.state = .waiting := (hdelay ht).1
    simp [hstate] at hw

/-- What the owner of actuator `a` records: its result stands, and the actuator is left as the result says. -/
structure Reports (l : LaneIx) (a : ActIx) (r : MoveResult) (x : Actuator) : Prop where
  law : Lawful x
  other : ∀ j, j ≠ l → x.owner ≠ .lane j
  result : r = .pending ∧ x.moving = true ∧ x.owner = .lane l ∨ r = .done ∧ x.state = .rest ∧ x.owner = .lane l ∨
    r = .failed ∧ x.owner = .none

/-- An actuator's result is recorded by lane `l`, whose moves on `a :: todo`, or those on `todo` alone, were still to be
started; those on `todo` remain. -/
theorem HeartLaw.reports {l : LaneIx} {a : ActIx} {todo todo' : List ActIx} {x : Actuator} {r : MoveResult}
    {h g : Machine.Step} {rest : List Machine.Step} (hl : HeartLaw mode (some l) todo' m) (hm : RunsMove m l a h rest)
    (htodo : ∀ b, b ≠ a → (b ∈ todo' ↔ b ∈ todo)) (hgone : a ∉ todo)
    (hold : ∀ j, j ≠ l → (m.act a).owner ≠ .lane j) (hfresh : ∀ p ∈ h.results, p.1 = a → p.2 ≠ .failed)
    (hx : Reports l a r x) (hcfg : x.cfg = (m.act a).cfg) (hr : RecordsAt a r h g) :
    HeartLaw mode (some l) todo ((m.setAct a x).setLane l { m.lane l with steps := g :: rest }) := by
  obtain ⟨n, hn⟩ : ∃ n, n = (m.setAct a x).setLane l { m.lane l with steps := g :: rest } := ⟨_, rfl⟩
  have hlane : n.lane l = { m.lane l with steps := g :: rest } := by rw [hn]; exact lane_setLane_self ..
  have hlanes : ∀ j, j ≠ l → n.lane j = m.lane j := fun j hj => by rw [hn]; exact lane_setLane_ne _ _ _ _ hj
  have hself : n.act a = x := by rw [hn]; exact act_setAct_self ..
  have hothers : ∀ b, b ≠ a → n.act b = m.act b := fun b hb => by rw [hn]; exact act_setAct_ne _ _ _ _ hb
  rw [← hn]
  clear hn
  have hmoves : g.moves = h.moves := by rw [hr.same]
  have hrole : ∀ j, j ≠ l → ∀ b, (n.act b).owner = .lane j ↔ (m.act b).owner = .lane j := fun j hj b => by
    by_cases hb : b = a
    · subst hb
      rw [hself]
      exact iff_of_false (hx.other j hj) (hold j hj)
    · rw [hothers b hb]
  refine ⟨fun b => ?_, fun j k hk mv hmv => ?_, fun j => ?_, fun j k krest hrun hs => ?_, fun b j ho => ?_, fun hmode j => ?_⟩
  · by_cases hb : b = a
    · subst hb
      rw [hself]
      exact hx.law
    · rw [hothers b hb]
      exact hl.acts b
  · have hmanaged : ∀ b, (n.act b).managed = (m.act b).managed := fun b => by
      unfold Actuator.managed
      by_cases hb : b = a
      · subst hb
        rw [hself, hcfg]
      · rw [hothers b hb]
    rw [hmanaged]
    by_cases hj : j = l
    · subst hj
      rw [hlane] at hk
      obtain rfl | hk := List.mem_cons.mp hk
      · rw [hmoves] at hmv
        exact hl.managed j h (by simp [hm.steps]) mv hmv
      · exact hl.managed j k (by rw [hm.steps]; exact List.mem_cons_of_mem _ hk) mv hmv
    · rw [hlanes j hj] at hk
      exact hl.managed j k hk mv hmv
  · by_cases hj : j = l
    · subst hj
      rw [hlane]
      exact LaneLaw.records (hl.lanes j) hm.running hm.steps hr
    · rw [hlanes j hj]
      exact hl.lanes j
  · by_cases hj : j = l
    · subst hj
      rw [hlane] at hs
      obtain ⟨rfl, rfl⟩ := List.cons.inj hs
      obtain ⟨hfit, _⟩ := hl.results j h rest hm.running hm.steps
      rw [if_pos rfl] at hfit ⊢
      refine ⟨⟨fun p hp ht => ?_, fun p hp ht => ?_, ?_⟩, fun hne => absurd rfl hne⟩
      · obtain rfl | ⟨hne, hp⟩ := hr.mem hp
        · exact absurd ht hgone
        · obtain ⟨hpend, howner, hstate⟩ := hfit.waits p hp ((htodo p.1 hne).mpr ht)
          have := hothers p.1 hne
          exact ⟨hpend, by rw [this]; exact howner, by rw [this]; exact hstate⟩
      · obtain rfl | ⟨hne, hp⟩ := hr.mem hp
        · obtain ⟨rfl, hmoving, howner⟩ | ⟨rfl, hrest, howner⟩ | ⟨rfl, howner⟩ := hx.result
          · exact ⟨fun _ => by rw [hself]; exact ⟨hmoving, howner⟩, nofun, nofun, nofun⟩
          · exact ⟨nofun, fun _ => by rw [hself]; exact ⟨hrest, howner⟩, nofun, nofun⟩
          · exact ⟨nofun, nofun, fun _ => by rw [hself, howner]; exact nofun, nofun⟩
        · refine (hfit.recorded p hp fun ht' => ht ((htodo p.1 hne).mp ht')).sameRole ?_
          rw [hothers p.1 hne]
          exact .refl _
      · rw [hr.firstFailed, hfit.firstFailed]
        constructor
        · rintro (⟨p, hp, hfail⟩ | rfl)
          · exact ⟨p, hr.mem_of_ne hp fun ha => hfresh p hp ha hfail, hfail⟩
          · exact ⟨_, hr.mem_self hm.move, rfl⟩
        · rintro ⟨p, hp, hfail⟩
          obtain rfl | ⟨_, hp⟩ := hr.mem hp
          · exact .inr hfail
          · exact .inl ⟨p, hp, hfail⟩
    · rw [hlanes j hj] at hrun hs ⊢
      have hne : some l ≠ some j := fun he => hj (Option.some.inj he).symm
      obtain ⟨hfit, hclosed⟩ := hl.results j k krest hrun hs
      rw [if_neg hne] at hfit ⊢
      refine ⟨⟨fun _ _ ht => absurd ht List.not_mem_nil, fun p hp ht => ?_, hfit.firstFailed⟩, hclosed⟩
      have hrec := hfit.recorded p hp ht
      by_cases hb : p.1 = a
      · refine ⟨fun hpend => ?_, fun hdone => ?_, fun _ ho => ?_, hrec.stopped⟩
        · exact absurd (hb ▸ (hrec.pending hpend).2) (hold j hj)
        · exact absurd (hb ▸ (hrec.done hdone).2) (hold j hj)
        · rw [hb, hself] at ho
          exact hx.other j hj ho
      · refine hrec.sameRole ?_
        rw [hothers p.1 hb]
        exact .refl _
  · by_cases hj : j = l
    · subst hj
      rw [hlane]
      by_cases hb : b = a
      · subst hb
        exact ⟨hm.running, g, rest, rfl, _, hr.mem_self hm.move, rfl⟩
      · rw [hothers b hb] at ho
        obtain ⟨_, k, krest, hk, p, hp, hpb⟩ := hl.owners b j ho
        obtain ⟨rfl, rfl⟩ := List.cons.inj (hm.steps.symm.trans hk)
        exact ⟨hm.running, g, rest, rfl, p, hr.mem_of_ne hp (by rw [hpb]; exact hb), hpb⟩
    · rw [hlanes j hj]
      exact hl.owners b j ((hrole j hj b).mp ho)
  · by_cases hj : j = l
    · subst hj
      exact absurd hm.running (hl.outside hmode j)
    · rw [hlanes j hj]
      exact hl.outside hmode j

/-! ## A lane that gives its actuators up -/

/-- An actuator of lane `l` is given up, any other is left alone. -/
structure GivesUp (l : LaneIx) (x y : Actuator) : Prop where
  law : Lawful y
  cfg : y.cfg = x.cfg
  owned : x.owner = .lane l → y.owner = .none
  other : x.owner ≠ .lane l → y = x

/-- The step of lane `l` ends: the lane runs no step and owns no actuator. -/
theorem HeartLaw.givesUp {l : LaneIx} (h : HeartLaw mode (some l) [] m) (hothers : ∀ j, j ≠ l → m'.lane j = m.lane j)
    (hact : ∀ b, GivesUp l (m.act b) (m'.act b)) (hlane : LaneLaw mode (m'.lane l))
    (hstate : (m'.lane l).state ≠ .running)
    (hmoves : ∀ g ∈ (m'.lane l).steps, ∃ k ∈ (m.lane l).steps, g.moves = k.moves) : WholeLaw mode m' := by
  have hunowned : ∀ b, (m'.act b).owner ≠ .lane l := fun b ho => by
    by_cases hb : (m.act b).owner = .lane l
    · rw [(hact b).owned hb] at ho
      cases ho
    · rw [(hact b).other hb] at ho
      exact hb ho
  have hfrom : ∀ b j, (m'.act b).owner = .lane j → m'.act b = m.act b := fun b j ho => by
    by_cases hb : (m.act b).owner = .lane l
    · rw [(hact b).owned hb] at ho
      cases ho
    · exact (hact b).other hb
  have hmanaged : ∀ b, (m'.act b).managed = (m.act b).managed := fun b => by
    unfold Actuator.managed
    rw [(hact b).cfg]
  refine ⟨fun b => (hact b).law, fun j g hg mv hmv => ?_, fun j => ?_, fun j g rest hr hs => ?_, fun b j ho => ?_,
    fun hm j => ?_⟩
  · rw [hmanaged]
    by_cases hj : j = l
    · subst hj
      obtain ⟨k, hk, hmk⟩ := hmoves g hg
      exact h.managed j k hk mv (hmk ▸ hmv)
    · rw [hothers j hj] at hg
      exact h.managed j g hg mv hmv
  · by_cases hj : j = l
    · exact hj ▸ hlane
    · rw [hothers j hj]
      exact h.lanes j
  · have hj : j ≠ l := fun he => hstate (he ▸ hr)
    rw [hothers j hj] at hr hs ⊢
    obtain ⟨hfit, hclosed⟩ := h.results j g rest hr hs
    rw [ite_self] at hfit ⊢
    refine ⟨⟨fun _ _ ht => absurd ht List.not_mem_nil, fun p hp ht => ?_, hfit.firstFailed⟩, fun _ =>
      hclosed fun he => hj (Option.some.inj he).symm⟩
    have hrec := hfit.recorded p hp ht
    have hkept : (m.act p.1).owner = .lane j → m'.act p.1 = m.act p.1 := fun ho =>
      (hact p.1).other fun hl => hj (Owner.lane.inj (ho.symm.trans hl))
    refine ⟨fun hpend => ?_, fun hdone => ?_, fun hfail ho => ?_, hrec.stopped⟩
    · rw [hkept (hrec.pending hpend).2]
      exact hrec.pending hpend
    · rw [hkept (hrec.done hdone).2]
      exact hrec.done hdone
    · rw [hfrom p.1 j ho] at ho
      exact hrec.failed hfail ho
  · have hj : j ≠ l := fun he => hunowned b (he ▸ ho)
    rw [hothers j hj]
    rw [hfrom b j ho] at ho
    exact h.owners b j ho
  · by_cases hj : j = l
    · exact hj ▸ hstate
    · rw [hothers j hj]
      exact h.outside hm j

/-- What is known of the step that lane `l` runs. -/
structure RunsStep (m : Motion) (l : LaneIx) (h : Machine.Step) (rest : List Machine.Step) : Prop where
  running : (m.lane l).state = .running
  steps : (m.lane l).steps = h :: rest
  fit : ResultsFit [] m l h
  named : h.results.map (·.1) = h.moves.map (·.act)

theorem HeartLaw.runsStep {l : LaneIx} {h : Machine.Step} {rest : List Machine.Step} (hl : HeartLaw mode (some l) [] m)
    (hr : (m.lane l).state = .running) (hs : (m.lane l).steps = h :: rest) : RunsStep m l h rest := by
  obtain ⟨hfit, _⟩ := hl.results l h rest hr hs
  rw [ite_self] at hfit
  obtain ⟨hsteps, _, _, hfits, _⟩ := hl.lanes l
  have hrun : h.run = .running := by simpa [headFits, hr] using hfits h rest hs
  obtain ⟨_, _, _, _, hrunning⟩ := hsteps h (by simp [hs])
  exact ⟨hr, hs, hfit, (hrunning hrun).1⟩

theorem RunsStep.result_of_move {l : LaneIx} {h : Machine.Step} {rest : List Machine.Step} (hr : RunsStep m l h rest)
    {b : ActIx} (hb : ∃ mv ∈ h.moves, mv.act = b) : ∃ p ∈ h.results, p.1 = b := by
  obtain ⟨mv, hmv, rfl⟩ := hb
  have hin : mv.act ∈ h.results.map (·.1) := by
    rw [hr.named]
    exact List.mem_map_of_mem hmv
  exact List.mem_map.mp hin

theorem RunsStep.move_of_result {l : LaneIx} {h : Machine.Step} {rest : List Machine.Step} (hr : RunsStep m l h rest)
    {b : ActIx} (hb : ∃ p ∈ h.results, p.1 = b) : ∃ mv ∈ h.moves, mv.act = b := by
  obtain ⟨p, hp, rfl⟩ := hb
  have hin : p.1 ∈ h.moves.map (·.act) := by
    rw [← hr.named]
    exact List.mem_map_of_mem hp
  exact List.mem_map.mp hin

/-- An actuator owned by lane `l` has a result in the step that the lane runs: PENDING while it moves, DONE at rest. -/
theorem HeartLaw.owned_result {l : LaneIx} {h : Machine.Step} {rest : List Machine.Step} (hl : HeartLaw mode (some l) [] m)
    (hr : RunsStep m l h rest) {b : ActIx} (ho : (m.act b).owner = .lane l) :
    (b, MoveResult.pending) ∈ h.results ∧ (m.act b).moving = true ∨ (b, MoveResult.done) ∈ h.results ∧
      (m.act b).state = .rest := by
  obtain ⟨_, k, krest, hk, p, hp, rfl⟩ := hl.owners b l ho
  obtain ⟨rfl, rfl⟩ := List.cons.inj (hr.steps.symm.trans hk)
  have hrec := hr.fit.recorded p hp List.not_mem_nil
  obtain ⟨b, r⟩ := p
  cases r with
  | pending => exact .inl ⟨hp, (hrec.pending rfl).1⟩
  | done => exact .inr ⟨hp, (hrec.done rfl).1⟩
  | failed => exact absurd ho (hrec.failed rfl)
  | stopped => exact absurd rfl hrec.stopped

theorem RunsStep.owner_of_pending {l : LaneIx} {h : Machine.Step} {rest : List Machine.Step} (hr : RunsStep m l h rest)
    {b : ActIx} (hp : (b, MoveResult.pending) ∈ h.results) : (m.act b).moving = true ∧ (m.act b).owner = .lane l :=
  (hr.fit.recorded _ hp List.not_mem_nil).pending rfl

/-- An aborted or failed step gives up its actuators, those that move being stopped (R52, R54, R60). -/
theorem HeartLaw.abortedAct_givesUp {l : LaneIx} {h : Machine.Step} {rest : List Machine.Step}
    (hl : HeartLaw mode (some l) [] m) (hr : RunsStep m l h rest) (v : View) (b : ActIx) :
    GivesUp l (m.act b) (abortedAct v l h b (m.act b)) := by
  by_cases ho : (m.act b).owner = .lane l
  · by_cases hp : (b, MoveResult.pending) ∈ h.results
    · obtain ⟨hlaw, hcfg, howner, _⟩ := stop_stopped v (hl.acts b) (hr.owner_of_pending hp).1
      have heq : abortedAct v l h b (m.act b) = (m.act b).stop v := by simp [abortedAct, hp, howner]
      rw [heq]
      exact ⟨hlaw, hcfg, fun _ => howner, fun hne => absurd ho hne⟩
    · have hrest : (m.act b).state = .rest := by
        obtain ⟨hpend, _⟩ | ⟨_, hrest⟩ := hl.owned_result hr ho
        · exact absurd hpend hp
        · exact hrest
      have hmove : ∃ mv ∈ h.moves, mv.act = b := by
        obtain ⟨_, k, krest, hk, hres⟩ := hl.owners b l ho
        obtain ⟨rfl, rfl⟩ := List.cons.inj (hr.steps.symm.trans hk)
        exact hr.move_of_result hres
      rw [abortedAct_settled hp hmove, if_pos ho]
      exact ⟨lawful_unowned (hl.acts b) (by simp [Actuator.moving, hrest]), rfl, fun _ => rfl, fun hne => absurd ho hne⟩
  · have hp : (b, MoveResult.pending) ∉ h.results := fun hp => ho (hr.owner_of_pending hp).2
    rw [abortedAct_not_lane hp ho]
    exact ⟨hl.acts b, rfl, fun h => absurd h ho, fun _ => rfl⟩

/-- A completed step gives up its actuators, all of them at rest (R48). -/
theorem HeartLaw.released_givesUp {l : LaneIx} {h : Machine.Step} {rest : List Machine.Step}
    (hl : HeartLaw mode (some l) [] m) (hr : RunsStep m l h rest) (hdone : ∀ p ∈ h.results, p.2 = .done) (b : ActIx) :
    GivesUp l (m.act b) (if ∃ mv ∈ h.moves, mv.act = b then { m.act b with owner := .none } else m.act b) := by
  by_cases hb : ∃ mv ∈ h.moves, mv.act = b
  · rw [if_pos hb]
    obtain ⟨p, hp, rfl⟩ := hr.result_of_move hb
    obtain ⟨hrest, howner⟩ := (hr.fit.recorded p hp List.not_mem_nil).done (hdone p hp)
    exact ⟨lawful_unowned (hl.acts p.1) (by simp [Actuator.moving, hrest]), rfl, fun _ => rfl, fun hne => absurd howner hne⟩
  · rw [if_neg hb]
    refine ⟨hl.acts b, rfl, fun ho => ?_, fun _ => rfl⟩
    obtain ⟨_, k, krest, hk, hres⟩ := hl.owners b l ho
    obtain ⟨rfl, rfl⟩ := List.cons.inj (hr.steps.symm.trans hk)
    exact absurd (hr.move_of_result hres) hb

/-! ## A lane that acts on its results -/

theorem failedLane_law {ln : Lane} {h k : Machine.Step} {rest : List Machine.Step} (hl : LaneLaw mode ln)
    (hs : ln.steps = h :: rest) (hmoves : k.moves = h.moves) (hfirst : k.firstFailed.isSome = true) :
    LaneLaw mode (failedLane k rest ln) :=
  LaneLaw.faults (k := { k with run := .failed }) hl hs hmoves (by simp) (by simp [hfirst])

/-- Without the step running on, a lane with a failed move is FAULTED, the moves of its steps as they were. -/
theorem laneWithFailure_law {ln : Lane} {h : Machine.Step} {rest : List Machine.Step} (hl : LaneLaw mode ln)
    (hs : ln.steps = h :: rest) (hfirst : h.firstFailed.isSome = true) (hstops : ¬ RunsOn ln.policy h) :
    LaneLaw mode (laneWithFailure h rest ln) ∧ (laneWithFailure h rest ln).state ≠ .running ∧
      ∀ g ∈ (laneWithFailure h rest ln).steps, ∃ k ∈ ln.steps, g.moves = k.moves := by
  have hsteps : ∀ k : Machine.Step, k.moves = h.moves → ∀ g ∈ (failedLane k rest ln).steps,
      ∃ k ∈ ln.steps, g.moves = k.moves := fun k hk g hg => by
    obtain rfl | hg := List.mem_cons.mp hg
    · exact ⟨h, by simp [hs], hk⟩
    · exact ⟨g, by rw [hs]; exact List.mem_cons_of_mem _ hg, rfl⟩
  unfold laneWithFailure
  split
  · next hp =>
    cases hpolicy : ln.policy with
    | finishOthers => exact absurd ⟨hpolicy, hp⟩ hstops
    | stopAll =>
      exact ⟨failedLane_law (k := allStopped h) hl hs rfl hfirst, nofun, hsteps (allStopped h) rfl⟩
  · exact ⟨failedLane_law hl hs rfl hfirst, nofun, hsteps h rfl⟩

/-- The head of a lane rewritten, its moves as they were. -/
theorem mapHead_moves {f : Machine.Step → Machine.Step} (hf : ∀ h, (f h).moves = h.moves) (ln : Lane) :
    ∀ g ∈ (ln.mapHead f).steps, ∃ k ∈ ln.steps, g.moves = k.moves := by
  intro g hg
  cases hs : ln.steps with
  | nil =>
    rw [mapHead_nil _ _ hs, hs] at hg
    cases hg
  | cons k krest =>
    rw [mapHead_cons _ _ k krest hs] at hg
    obtain rfl | hg := List.mem_cons.mp hg
    · exact ⟨k, List.mem_cons_self .., hf k⟩
    · exact ⟨g, List.mem_cons_of_mem _ hg, rfl⟩

theorem evaluatedIn_moves (mode : Mode) (ln : Lane) :
    ∀ g ∈ (evaluatedIn mode ln).steps, ∃ k ∈ ln.steps, g.moves = k.moves := by
  obtain ⟨state, run, timer, heq⟩ := evaluatedIn_fields mode ln
  rw [heq]
  exact mapHead_moves (f := fun h => { h with run := run }) (fun _ => rfl) ln

theorem goneOn_moves (mode : Mode) (ln : Lane) : ∀ g ∈ (goneOn mode ln).steps, ∃ k ∈ ln.steps, g.moves = k.moves := by
  unfold goneOn
  split
  · exact fun g hg => ⟨g, hg, rfl⟩
  · split
    · exact fun g hg => ⟨g, hg, rfl⟩
    · exact evaluatedIn_moves mode ln

theorem completedLane_steps {ln : Lane} {h : Machine.Step} {rest : List Machine.Step} (hs : ln.steps = h :: rest) :
    ∀ g ∈ (completedLane mode h rest ln).steps, ∃ k ∈ ln.steps, g.moves = k.moves := by
  intro g hg
  rw [← goneOn_counted] at hg
  obtain ⟨k, hk, hgk⟩ := goneOn_moves _ _ g hg
  obtain hk | hk := List.mem_append.mp hk
  · exact ⟨k, by rw [hs]; exact List.mem_cons_of_mem _ hk, hgk⟩
  · split at hk
    · obtain rfl := List.mem_singleton.mp hk
      exact ⟨h, by simp [hs], hgk⟩
    · cases hk

theorem goneOn_not_running (mode : Mode) (ln : Lane) : (goneOn mode ln).state ≠ .running := by
  unfold goneOn
  split
  · exact nofun
  · split
    · exact nofun
    · next hs =>
      obtain h | h := evaluatedIn_state (mode := mode) hs <;> simp [h]

theorem completedLane_not_running (mode : Mode) (h : Machine.Step) (rest : List Machine.Step) (ln : Lane) :
    (completedLane mode h rest ln).state ≠ .running := by
  rw [← goneOn_counted]
  exact goneOn_not_running _ _

/-- A lane whose step runs on is as it was (R53). -/
theorem laneWithFailure_runs_on {ln : Lane} {h : Machine.Step} {rest : List Machine.Step} (hs : ln.steps = h :: rest)
    (hon : RunsOn ln.policy h) : laneWithFailure h rest ln = ln := by
  obtain ⟨hpolicy, hpending⟩ := hon
  unfold laneWithFailure
  rw [if_pos hpending]
  split
  · rw [← hs]
  · next hstop => exact FaultPolicy.noConfusion (hpolicy.symm.trans hstop)

/-- A lane that acts on its results completes its step, fails it, or lets it go on (R47). -/
theorem HeartLaw.acted {v : Env} {l : LaneIx} {e : Event} (hl : HeartLaw v.mode (some l) [] e.m) :
    WholeLaw v.mode (e.actOnResults v l).m := by
  by_cases hr : (e.m.lane l).state = .running
  · cases hs : (e.m.lane l).steps with
    | nil => exact absurd hs (LaneLaw.steps_ne_nil (hl.lanes l) (by simp [hr]) (by simp [hr]))
    | cons h rest =>
      have hrun := hl.runsStep hr hs
      by_cases hf : ∃ p ∈ h.results, p.2 = .failed
      · have htaken := actOnResults_failed hr hs hf v
        by_cases hon : RunsOn (e.m.lane l).policy h
        · have hlane : (e.actOnResults v l).m.lane l = e.m.lane l := htaken.lane.trans (laneWithFailure_runs_on hs hon)
          have hlanes : ∀ j, (e.actOnResults v l).m.lane j = e.m.lane j := fun j => by
            by_cases hj : j = l
            · exact hj ▸ hlane
            · exact htaken.others j hj
          have hact : ∀ b, (e.actOnResults v l).m.act b = e.m.act b := fun b => (htaken.act b).trans (if_pos hon)
          refine HeartLaw.settled (l := l) (hl.acts_only hlanes fun b => ?_) fun g grest _ hg => ?_
          · rw [hact]
            exact ⟨hl.acts b, rfl, .refl _⟩
          · rw [hlane] at hg ⊢
            obtain ⟨rfl, rfl⟩ := List.cons.inj (hs.symm.trans hg)
            exact ⟨hon.2, fun hstop => FaultPolicy.noConfusion (hstop.symm.trans hon.1)⟩
        · obtain ⟨hlaw, hstate, hmoves⟩ := laneWithFailure_law (hl.lanes l) hs (hrun.fit.firstFailed.mpr hf) hon
          rw [← htaken.lane] at hlaw hstate hmoves
          refine hl.givesUp htaken.others (fun b => ?_) hlaw hstate hmoves
          rw [htaken.act, if_neg hon]
          exact hl.abortedAct_givesUp hrun _ b
      · have hnone : ∀ p ∈ h.results, p.2 ≠ .failed := fun p hp hfail => hf ⟨p, hp, hfail⟩
        by_cases hd : ∀ p ∈ h.results, p.2 = .done
        · have hc := actOnResults_done hr hs hd v
          have hlaw := completedLane_law (hl.lanes l) hr hs
          have hstate := completedLane_not_running v.mode h rest (e.m.lane l)
          have hmoves := completedLane_steps (mode := v.mode) hs
          rw [← hc.lane] at hlaw hstate hmoves
          refine hl.givesUp hc.others (fun b => ?_) hlaw hstate hmoves
          rw [hc.act]
          exact hl.released_givesUp hrun hd b
        · obtain ⟨p, hp, hne⟩ : ∃ p ∈ h.results, p.2 ≠ .done := by simpa using hd
          rw [actOnResults_runs_on hr hs hnone ⟨p, hp, hne⟩]
          refine HeartLaw.settled hl fun g grest _ hg => ?_
          obtain ⟨rfl, rfl⟩ := List.cons.inj (hs.symm.trans hg)
          have hpend : p.2 = .pending := by
            cases hres : p.2 with
            | pending => rfl
            | done => exact absurd hres hne
            | failed => exact absurd hres (hnone p hp)
            | stopped => exact absurd hres (hrun.fit.recorded p hp List.not_mem_nil).stopped
          exact ⟨⟨p, hp, hpend⟩, fun _ => hnone⟩
  · rw [actOnResults_of_not_running hr]
    exact HeartLaw.settled hl fun _ _ hrun => absurd hrun hr

/-! ## One actuator acts -/

/-- A report that concerns no lane changes no lane. -/
theorem act_unowned {v : Env} {a : ActIx} {f : View → Actuator → ActOut} {e : Event}
    (hlane : (f (v.view a) (e.m.act a)).report.lane? = none) :
    (e.act v a f).m = e.m.setAct a (f (v.view a) (e.m.act a)).act := by
  rw [act_alone v a f e fun l hl => by rw [hlane] at hl; cases hl]

theorem ReportsTo.of_moves {x : Owner} {cfg : ActConfig} {out : ActOut} (h : Moves x cfg out) : ReportsTo x out.report := by
  cases h with
  | runs => exact .quiet
  | done => exact .done
  | failed c => exact .failed c

/-- The result that a lane takes from a report to it. -/
inductive Tells (l : LaneIx) : Report → MoveResult → Prop
  | quiet : Tells l .quiet .pending
  | done : Tells l (.done (.lane l)) .done
  | failed (c : ActFault) : Tells l (.failed (.lane l) c) .failed

theorem Tells.quiet_of_pending {l : LaneIx} {report : Report} (h : Tells l report .pending) : report = .quiet := by
  cases h
  rfl

/-- The actuator a lane owns is left as the report says. -/
theorem Moves.reports {l : LaneIx} {cfg : ActConfig} {out : ActOut} (h : Moves (.lane l) cfg out) (hlaw : Lawful out.act)
    (a : ActIx) : out.act.cfg = cfg ∧ ∃ r, Tells l out.report r ∧ Reports l a r out.act := by
  cases h with
  | runs hcfg howner hmoving =>
    exact ⟨hcfg, _, .quiet, hlaw, fun j hj ho => hj (Owner.lane.inj (ho.symm.trans howner)), .inl ⟨rfl, hmoving, howner⟩⟩
  | done hcfg howner hstate =>
    exact ⟨hcfg, _, .done, hlaw, fun j hj ho => hj (Owner.lane.inj (ho.symm.trans howner)),
      .inr (.inl ⟨rfl, hstate, howner⟩)⟩
  | failed c hcfg howner hstate =>
    refine ⟨hcfg, _, .failed c, hlaw, fun j _ ho => ?_, .inr (.inr ⟨rfl, howner⟩)⟩
    cases howner.symm.trans ho

/-- A report to a RUNNING lane as the lane takes it, where a result still PENDING is recorded as it is. -/
theorem takeReport_told {l : LaneIx} {a : ActIx} {x : Actuator} {h : Machine.Step} {rest : List Machine.Step} {e : Event}
    {report : Report} {r : MoveResult} (ht : Tells l report r) (hr : (e.m.lane l).state = .running)
    (hs : (e.m.lane l).steps = h :: rest) (hpending : r = .pending → ∀ p ∈ h.results, p.1 = a → p.2 = .pending) :
    ∃ g notes, RecordsAt a r h g ∧ (e.setAct a x).takeReport a report = reported l a x g rest notes e := by
  cases ht with
  | quiet =>
    have hsame : h.results = h.results.map fun p => if p.1 = a then (a, .pending) else p := by
      refine ((List.map_congr_left fun p hp => ?_).trans (List.map_id _)).symm
      by_cases hpa : p.1 = a
      · rw [if_pos hpa, ← hpa, ← hpending rfl p hp hpa]
        rfl
      · exact if_neg hpa
    refine ⟨h, [], ⟨rfl, hsame, by simp⟩, ?_⟩
    have hlane : ({ e.m.lane l with steps := h :: rest } : Lane) = e.m.lane l := by rw [← hs]
    have hset : (e.m.setAct a x).setLane l (e.m.lane l) = e.m.setAct a x := setLane_lane (e.m.setAct a x) l
    simp only [Event.takeReport, reported, hlane, hset, List.append_nil]
    rfl
  | done => exact ⟨_, _, doneAt_records a h, takeReport_done hr hs⟩
  | failed c => exact ⟨_, _, failedAt_records a h, takeReport_failed_running hr hs c⟩

/-- The lane that a report concerns acts on its results; where the report is quiet, nobody does. -/
theorem act_told {l : LaneIx} {v : Env} {a : ActIx} {f : View → Actuator → ActOut} {e : Event} {r : MoveResult}
    (ht : Tells l (f (v.view a) (e.m.act a)).report r) (hne : r ≠ .pending) :
    e.act v a f = (e.actOnly v a f).actOnResults v l := by
  unfold Event.act Event.actOnly
  dsimp only
  cases hrep : (f (v.view a) (e.m.act a)).report with
  | quiet =>
    rw [hrep] at ht
    cases ht
    exact absurd rfl hne
  | done o =>
    rw [hrep] at ht
    cases ht
    rfl
  | failed o c =>
    rw [hrep] at ht
    cases ht
    rfl

/-- An actuator that acts keeps the law of the heart, its lane having acted on what it reports. -/
theorem HeartLaw.act {v : Env} {a : ActIx} {f : View → Actuator → ActOut} {e : Event} (hl : WholeLaw v.mode e.m)
    (ha : Acted (e.m.act a) (f (v.view a) (e.m.act a))) : WholeLaw v.mode (e.act v a f).m := by
  obtain ⟨out, hout⟩ : ∃ out, f (v.view a) (e.m.act a) = out := ⟨_, rfl⟩
  rw [hout] at ha
  obtain ⟨hlaw, hdoes, hruns⟩ := ha
  obtain hmoves | hrests := hdoes
  · by_cases howned : ∃ l, (e.m.act a).owner = .lane l
    · obtain ⟨l, howner⟩ := howned
      rw [howner] at hmoves
      obtain ⟨hr, h, rest, hs, hmove⟩ := hl.owners a l howner
      obtain ⟨hcfg, r, htold, hx⟩ := Moves.reports hmoves hlaw a
      have hopen := HeartLaw.reopen hl l
      have hrun := hopen.runsStep hr hs
      by_cases hpend : r = .pending
      · subst hpend
        obtain ⟨hmoving, howner'⟩ : out.act.moving = true ∧ out.act.owner = .lane l := by
          obtain ⟨_, hmoving, howner'⟩ | ⟨hr, _⟩ | ⟨hr, _⟩ := hx.result
          · exact ⟨hmoving, howner'⟩
          · cases hr
          · cases hr
        have hquiet : out.report.lane? = none := by rw [htold.quiet_of_pending]; rfl
        rw [act_unowned (by rw [hout]; exact hquiet), hout]
        refine HeartLaw.setAct hl hlaw hcfg ⟨fun j => by rw [howner', howner], fun _ _ _ => hmoving, fun _ _ hrest => ?_⟩
        have hm := hruns hmoving
        simp [Actuator.moving, hrest] at hm
      · obtain ⟨g, notes, hrec, htaken⟩ := takeReport_told (x := out.act) htold hr hs fun h => absurd h hpend
        have hfresh : ∀ p ∈ h.results, p.1 = a → p.2 ≠ .failed := fun p hp hpa hfail =>
          (hrun.fit.recorded p hp List.not_mem_nil).failed hfail (hpa ▸ howner)
        have honly : e.actOnly v a f = reported l a out.act g rest notes e := by
          unfold Event.actOnly
          rw [hout]
          exact htaken
        rw [act_told (by rw [hout]; exact htold) hpend, honly]
        exact HeartLaw.acted (e := reported l a out.act g rest notes e)
          (hopen.reports ⟨hr, hs, hmove⟩ (fun _ _ => Iff.rfl) List.not_mem_nil
            (fun j hj ho => hj (Owner.lane.inj (ho.symm.trans howner))) hfresh hx hcfg hrec)
    · have hno : ∀ l, (e.m.act a).owner ≠ .lane l := fun l ho => howned ⟨l, ho⟩
      rw [act_unowned (by rw [hout]; exact (ReportsTo.of_moves hmoves).lane? hno), hout]
      refine HeartLaw.setAct hl hlaw ?_ (.of_unowned hno ?_)
      · cases hmoves with
        | runs hcfg | done hcfg | failed c hcfg => exact hcfg
      · cases hmoves with
        | runs _ howner => exact fun l ho => hno l (howner.symm.trans ho)
        | done _ howner =>
          intro l ho
          have hkept : ownerKept (e.m.act a).owner = .lane l := howner.symm.trans ho
          cases hx : (e.m.act a).owner with
          | lane j => exact hno j hx
          | none | jog | safe =>
            rw [hx] at hkept
            cases hkept
        | failed c _ howner =>
          intro l ho
          cases howner.symm.trans ho
  · rw [act_unowned (by rw [hout, hrests.report]; rfl), hout]
    exact HeartLaw.setAct hl hlaw hrests.cfg (.of_eq hrests.owner hrests.state)

theorem HeartLaw.foldl_act {v : Env} {f : View → Actuator → ActOut} (hf : ∀ w x, Lawful x → Acted x (f w x))
    (xs : List ActIx) : ∀ e : Event, WholeLaw v.mode e.m → WholeLaw v.mode (xs.foldl (fun e a => e.act v a f) e).m := by
  induction xs with
  | nil => exact fun _ h => h
  | cons a xs ih => exact fun e h => ih _ (HeartLaw.act h (hf _ _ (h.acts a)))

/-! ## The start of a step -/

/-- One move of a step that starts, its actuator free (R46). -/
theorem HeartLaw.startsMove {v : Env} {l : LaneIx} {mv : Move} {todo : List ActIx} {e : Event} {h : Machine.Step}
    {rest : List Machine.Step} (hl : HeartLaw v.mode (some l) (mv.act :: todo) e.m) (hgone : mv.act ∉ todo)
    (hm : RunsMove e.m l mv.act h rest) :
    ∃ g x notes, h.results.map (·.1) = g.results.map (·.1) ∧
      (e.actOnly v mv.act fun w a => a.startMove w (.lane l) mv.target) = reported l mv.act x g rest notes e ∧
      HeartLaw v.mode (some l) todo (reported l mv.act x g rest notes e).m := by
  obtain ⟨hfit, _⟩ := hl.results l h rest hm.running hm.steps
  rw [if_pos rfl] at hfit
  have hwaits : ∀ p ∈ h.results, p.1 = mv.act → Waits e.m p := fun p hp hpa =>
    hfit.waits p hp (hpa ▸ List.mem_cons_self ..)
  obtain ⟨howner, hstate⟩ : (e.m.act mv.act).owner = .none ∧ (e.m.act mv.act).state = .rest := by
    obtain ⟨p, hp, hpa⟩ := hm.move
    exact hpa ▸ ⟨(hwaits p hp hpa).owner, (hwaits p hp hpa).state⟩
  have hready : Ready (e.m.act mv.act) := (hl.acts mv.act).ready (by simp [hstate]) (by simp [hstate])
  obtain ⟨hlaw, hdoes⟩ := startMove_kept (v.view mv.act) (o := .lane l) mv.target nofun hready
  obtain ⟨hcfg, r, htold, hx⟩ := Moves.reports hdoes hlaw mv.act
  obtain ⟨g, notes, hrec, htaken⟩ := takeReport_told
    (x := ((e.m.act mv.act).startMove (v.view mv.act) (.lane l) mv.target).act) htold hm.running hm.steps
    fun _ p hp hpa => (hwaits p hp hpa).pending
  refine ⟨g, _, notes, hrec.acts.symm, htaken, ?_⟩
  refine hl.reports hm (fun b hb => ?_) hgone (fun j _ ho => ?_) (fun p hp hpa hfail => ?_) hx hcfg hrec
  · rw [List.mem_cons]
    exact or_iff_right hb
  · cases howner.symm.trans ho
  · cases (hwaits p hp hpa).pending.symm.trans hfail

/-- The moves of a step start one after the other, each actuator free until its own starts (R46). -/
theorem HeartLaw.startMoves {v : Env} {l : LaneIx} (moves : List Move) : ∀ e : Event, (moves.map (·.act)).Nodup →
    HeartLaw v.mode (some l) (moves.map (·.act)) e.m → (e.m.lane l).state = .running →
    (∃ h rest, (e.m.lane l).steps = h :: rest ∧ ∀ mv ∈ moves, mv.act ∈ h.results.map (·.1)) →
    HeartLaw v.mode (some l) [] (e.startMoves v l moves).m := by
  induction moves with
  | nil => exact fun _ _ hl _ _ => hl
  | cons mv moves ih =>
    intro e hnodup hl hrunning ⟨h, rest, hsteps, hnamed⟩
    obtain ⟨hgone, hrest⟩ := List.nodup_cons.mp hnodup
    have hmove : ∃ p ∈ h.results, p.1 = mv.act := List.mem_map.mp (hnamed mv (List.mem_cons_self ..))
    obtain ⟨g, x, notes, hacts, hstarted, hlaw⟩ := HeartLaw.startsMove hl hgone ⟨hrunning, hsteps, hmove⟩
    have heq : e.startMoves v l (mv :: moves) = (reported l mv.act x g rest notes e).startMoves v l moves := by
      unfold Event.startMoves
      rw [List.foldl_cons, hstarted]
    have hlane : (reported l mv.act x g rest notes e).m.lane l = { e.m.lane l with steps := g :: rest } :=
      lane_reported notes
    rw [heq]
    refine ih _ hrest hlaw (by rw [hlane]; exact hrunning) ⟨g, rest, by rw [hlane], fun mw hmw => ?_⟩
    rw [← hacts]
    exact hnamed mw (List.mem_cons_of_mem _ hmw)

/-- A step as its run begins: every move PENDING (R46). -/
def begunStep (now : Time) (h : Machine.Step) : Machine.Step :=
  { h with
    run := .running, startTime := some now, firstFailed := none, results := h.moves.map fun mv => (mv.act, .pending) }

theorem begunLane_eq {ln : Lane} {h : Machine.Step} {rest : List Machine.Step} (hs : ln.steps = h :: rest) (now : Time) :
    begunLane now h.moves ln = { ln with state := .running, steps := begunStep now h :: rest, delayTimer := none } := by
  unfold begunLane
  rw [mapHead_cons _ _ h rest hs]
  rfl

theorem begunLane_law {ln : Lane} {h : Machine.Step} {rest : List Machine.Step} (hl : Loose ln)
    (hs : ln.steps = h :: rest) (now : Time) : LaneLaw mode (begunLane now h.moves ln) := by
  obtain ⟨hsteps, htail, hpause, hfault, hfailed⟩ := hl
  rw [begunLane_eq hs]
  obtain ⟨⟨hone, height, hnodup, _⟩, _⟩ := hsteps h (by simp [hs])
  refine ⟨fun g hg => ?_, fun g hg => htail g (by rw [hs]; exact hg), nofun, fun g grest hg => ?_, fun _ => rfl, ?_, ?_,
    nofun⟩
  · obtain rfl | hg := List.mem_cons.mp hg
    · refine ⟨hone, height, hnodup, fun hw => ?_, fun _ => ⟨?_, rfl⟩⟩
      · simp [begunStep] at hw
      · simp [begunStep]
    · exact (hsteps g (by rw [hs]; exact List.mem_cons_of_mem _ hg)).1
  · obtain ⟨rfl, rfl⟩ := List.cons.inj hg
    rfl
  · simp [hfault]
  · simp [hfault, hfailed]

/-- An actuator that the start test finds free is at rest (R72). -/
theorem Lawful.rest_of_free {x : Actuator} (h : Lawful x) (hm : x.managed = true) (ho : x.owner = .none)
    (hf : x.state ≠ .faulted) : x.state = .rest := by
  have hoff : x.state ≠ .off := fun hoff => Bool.false_ne_true ((h.1.1.mp hoff).symm.trans hm)
  have hmoving : ¬ x.moving = true := fun hmv => h.1.2.2.1 hmv ho
  cases hs : x.state <;> simp_all [Actuator.moving]

/-- A head whose actuators are free begins its run (R46). -/
theorem HeartLaw.begun {l : LaneIx} {h : Machine.Step} {rest : List Machine.Step} (hl : WholeLaw .run m)
    (hloose : Loose (m.lane l)) (hidle : (m.lane l).state ≠ .running) (hs : (m.lane l).steps = h :: rest)
    (hfree : ∀ mv ∈ h.moves, (m.act mv.act).owner = .none ∧ (m.act mv.act).state ≠ .faulted) (now : Time)
    (hact : ∀ b, m'.act b = m.act b) (hothers : ∀ j, j ≠ l → m'.lane j = m.lane j)
    (hlane : m'.lane l = begunLane now h.moves (m.lane l)) : HeartLaw .run (some l) (h.moves.map (·.act)) m' := by
  have hsteps : (m'.lane l).steps = begunStep now h :: rest := by rw [hlane, begunLane_eq hs]
  refine ⟨fun b => by rw [hact]; exact hl.acts b, fun j g hg mv hmv => ?_, fun j => ?_, fun j g grest hr hg => ?_,
    fun b j ho => ?_, fun hm => absurd rfl hm⟩
  · rw [hact]
    by_cases hj : j = l
    · subst hj
      rw [hsteps] at hg
      obtain rfl | hg := List.mem_cons.mp hg
      · exact hl.managed j h (by simp [hs]) mv hmv
      · exact hl.managed j g (by rw [hs]; exact List.mem_cons_of_mem _ hg) mv hmv
    · rw [hothers j hj] at hg
      exact hl.managed j g hg mv hmv
  · by_cases hj : j = l
    · subst hj
      rw [hlane]
      exact begunLane_law hloose hs now
    · rw [hothers j hj]
      exact hl.lanes j
  · by_cases hj : j = l
    · subst hj
      obtain ⟨rfl, rfl⟩ := List.cons.inj (hsteps.symm.trans hg)
      rw [if_pos rfl]
      have hmem : ∀ p ∈ (begunStep now h).results, ∃ mv ∈ h.moves, (mv.act, MoveResult.pending) = p := fun p hp =>
        List.mem_map.mp hp
      refine ⟨⟨fun p hp _ => ?_, fun p hp ht => ?_, ?_⟩, fun hne => absurd rfl hne⟩
      · obtain ⟨mv, hmv, rfl⟩ := hmem p hp
        obtain ⟨howner, hfault⟩ := hfree mv hmv
        have hmanaged := hl.managed j h (by simp [hs]) mv hmv
        exact ⟨rfl, by rw [hact]; exact howner,
          by rw [hact]; exact Lawful.rest_of_free (hl.acts mv.act) hmanaged howner hfault⟩
      · obtain ⟨mv, hmv, rfl⟩ := hmem p hp
        exact absurd (List.mem_map_of_mem hmv) ht
      · refine iff_of_false nofun ?_
        rintro ⟨p, hp, hfail⟩
        obtain ⟨mv, hmv, rfl⟩ := hmem p hp
        cases hfail
    · rw [hothers j hj] at hr hg ⊢
      obtain ⟨hfit, hclosed⟩ := hl.results j g grest hr hg
      rw [if_neg nofun] at hfit
      rw [if_neg fun he => hj (Option.some.inj he).symm]
      refine ⟨⟨fun _ _ ht => absurd ht List.not_mem_nil, fun p hp ht => ?_, hfit.firstFailed⟩, fun _ => hclosed nofun⟩
      refine (hfit.recorded p hp ht).sameRole ?_
      rw [hact]
      exact .refl _
  · rw [hact] at ho
    have hj : j ≠ l := fun he => hidle (he ▸ (hl.owners b j ho).1)
    rw [hothers j hj]
    exact hl.owners b j ho

/-- A start that the arbiter finds: a QUEUED lane's head, its actuators free (R71, R72, R75, R76). -/
theorem findReady_start {v : Env} {e : Event} {l : LaneIx} (queue : List QEntry) : ∀ older,
    e.findReady v older queue = some l →
      l ∈ queue.map (·.lane) ∧ ∃ h rest, (e.m.lane l).steps = h :: rest ∧ e.m.startTest v h = true := by
  induction queue with
  | nil => exact fun _ h => by cases h
  | cons q queue ih =>
    intro older h
    unfold Event.findReady at h
    split at h
    · next hready =>
      obtain rfl := Option.some.inj h
      refine ⟨List.mem_map_of_mem (List.mem_cons_self ..), ?_⟩
      unfold Event.ready at hready
      cases hs : (e.m.lane q.lane).steps with
      | nil => simp [Motion.headOf, Lane.head?, hs] at hready
      | cons h rest =>
        simp only [Motion.headOf, Lane.head?, hs, List.head?_cons, Bool.and_eq_true] at hready
        exact ⟨h, rest, rfl, hready.1.2⟩
    · obtain ⟨hmem, hstart⟩ := ih _ h
      exact ⟨List.mem_cons_of_mem _ hmem, hstart⟩

theorem startTest_free {v : Env} {h : Machine.Step} (ht : m.startTest v h = true) :
    ∀ mv ∈ h.moves, (m.act mv.act).owner = .none ∧ (m.act mv.act).state ≠ .faulted := by
  intro mv hmv
  unfold Motion.startTest at ht
  simp only [Bool.and_eq_true, List.all_eq_true] at ht
  simpa [Motion.actFree] using (ht.1 mv hmv).1

/-- A head that may start runs, and its lane acts on the results of the moves that end at once (R46). -/
theorem HeartLaw.startLane {v : Env} {l : LaneIx} {e : Event} {h : Machine.Step} {rest : List Machine.Step}
    (hmode : v.mode = .run) (hl : WholeLaw .run e.m) (hq : (e.m.lane l).state = .queued)
    (hs : (e.m.lane l).steps = h :: rest) (ht : e.m.startTest v h = true) : WholeLaw .run (e.startLane v l).m := by
  obtain ⟨marks, heq⟩ := begin_eq v l h e
  obtain ⟨b, hb⟩ : ∃ b, b = ((e.leaveQueue l).consumeMark h.cond).beginRun v l h := ⟨_, rfl⟩
  have hstart : e.startLane v l = (b.startMoves v l h.moves).actOnResults v l := by
    unfold Event.startLane
    rw [hs, hb]
  have hact : ∀ a, b.m.act a = e.m.act a := fun a => by rw [hb, heq]; rfl
  have hothers : ∀ j, j ≠ l → b.m.lane j = e.m.lane j := fun j hj => by
    rw [hb, heq]
    exact lane_setLane_ne _ _ _ _ hj
  have hlane : b.m.lane l = begunLane v.time h.moves (e.m.lane l) := by
    rw [hb, heq]
    exact lane_setLane_self ..
  have hloose : Loose (e.m.lane l) := LaneLaw.loose (hl.lanes l) (by simp [hq]) (by simp [hq])
  have hbegun := HeartLaw.begun hl hloose (by simp [hq]) hs (startTest_free ht) v.time hact hothers hlane
  have hnodup : (h.moves.map (·.act)).Nodup := (StepLaw.moves (hloose.steps h (by simp [hs])).1).2.2
  have hsteps : (b.m.lane l).steps = begunStep v.time h :: rest := by rw [hlane, begunLane_eq hs]
  rw [hstart]
  rw [← hmode] at hbegun ⊢
  refine HeartLaw.acted (HeartLaw.startMoves h.moves b hnodup hbegun (by rw [hlane]; rfl) ⟨_, rest, hsteps, fun mv hmv => ?_⟩)
  exact List.mem_map.mpr ⟨(mv.act, .pending), List.mem_map_of_mem hmv, rfl⟩

/-- The arbiter keeps the law, the start queue telling it which lanes are QUEUED. -/
theorem HeartLaw.startReady {v : Env} (hmode : v.mode = .run) (n : Nat) : ∀ e : Event, QueueFits .run e.m →
    WholeLaw .run e.m → WholeLaw .run (e.startReady v n).m := by
  induction n with
  | zero => exact fun _ _ h => h
  | succ n ih =>
    intro e hfits hl
    unfold Event.startReady
    split
    · exact hl
    · next l hfind =>
      obtain ⟨hmem, h, rest, hs, ht⟩ := findReady_start _ _ hfind
      obtain ⟨_, _, hqueued, _⟩ := (queueFits_iff .run e.m).mp hfits
      have hkept : Keeps .run e.m (e.startLane v l).m := hmode ▸ keeps_startLane v l e
      exact ih _ (hkept.fits hfits) (HeartLaw.startLane hmode hl ((hqueued l).mp hmem) hs ht)

theorem HeartLaw.arbitrate {v : Env} {e : Event} (hfits : QueueFits v.mode e.m) (hl : WholeLaw v.mode e.m) :
    WholeLaw v.mode (e.arbitrate v).m := by
  unfold Event.arbitrate
  split
  · next hrun =>
    have hmode : v.mode = .run := eq_of_beq hrun
    rw [hmode] at hfits hl ⊢
    exact HeartLaw.startReady hmode 4 e hfits hl
  · exact hl

end

end Sys2Proof.Proofs.HeartLaws
end

section
/-! PROOFS of the families 01 and 02, the law of the actuators and that of the lanes through every event (R5, R7, R39 to R64):
what each turn of the part makes of them. -/

namespace Sys2Proof.Proofs.HeartTurns

open Sys2Proof.Machine Sys2Proof.Safety Sys2Proof.Proofs.LaneRequests Sys2Proof.Proofs.LaneResults
open Sys2Proof.Proofs.StepResults Sys2Proof.Proofs.LinesAndBanks Sys2Proof.Proofs.OperatingModes
open Sys2Proof.Proofs.MessageReference Sys2Proof.Proofs.QueueAndPool Sys2Proof.Proofs.EventRows
open Sys2Proof.Proofs.ActuatorLaws Sys2Proof.Proofs.LaneLaws Sys2Proof.Proofs.HeartLaws

/-! ## Lanes that change, the actuators as they were -/

/-- The steps of `x` have the moves of steps of `ln`. -/
def MovesFrom (ln x : Lane) : Prop := ∀ g ∈ x.steps, ∃ k ∈ ln.steps, g.moves = k.moves

theorem MovesFrom.of_subset {ln x : Lane} (h : ∀ g ∈ x.steps, g ∈ ln.steps) : MovesFrom ln x :=
  fun g hg => ⟨g, h g hg, rfl⟩

theorem MovesFrom.trans {ln x y : Lane} (h : MovesFrom ln x) (h' : MovesFrom x y) : MovesFrom ln y := fun g hg => by
  obtain ⟨k, hk, hgk⟩ := h' g hg
  obtain ⟨j, hj, hkj⟩ := h k hk
  exact ⟨j, hj, hgk.trans hkj⟩

/-- What a lane may become in an event in a device mode, the actuators as they were. -/
structure Becomes (mode : Mode) (ln x : Lane) : Prop where
  law : LaneLaw mode x
  runs : RunsAlike ln x
  moves : MovesFrom ln x

theorem Becomes.refl {mode : Mode} {ln : Lane} (h : LaneLaw mode ln) : Becomes mode ln ln :=
  ⟨h, .refl ln, .of_subset fun _ => id⟩

/-- A lane that runs no step takes another form in which it runs none. -/
theorem Becomes.idle {mode : Mode} {ln x : Lane} (h : LaneLaw mode x) (hx : x.state ≠ .running) (hln : ln.state ≠ .running)
    (hm : MovesFrom ln x) : Becomes mode ln x := ⟨h, .of_not_running hx hln, hm⟩

theorem aged_becomes {mode : Mode} {ln x : Lane} (ha : Aged ln x) (h : LaneLaw mode ln) : Becomes mode ln x := by
  refine ⟨ha.law h, Aged.runsAlike ha, fun g hg => ?_⟩
  obtain ⟨steps, timer, rfl, hsame, _⟩ := ha.eq
  obtain ⟨k, hk, b, rfl⟩ := hsame.exists_of_mem hg
  exact ⟨k, hk, rfl⟩

section

variable {mode mode' : Mode} {m m' : Motion} {e : Event} {l : LaneIx} {x : Lane}

theorem movesFrom_managed (h : StepsManaged m) (hcfg : ∀ a, (m'.act a).cfg = (m.act a).cfg)
    (hmoves : ∀ j, MovesFrom (m.lane j) (m'.lane j)) : StepsManaged m' := fun j g hg mv hmv => by
  obtain ⟨k, hk, hgk⟩ := hmoves j g hg
  have hm := h j k hk mv (hgk ▸ hmv)
  unfold Actuator.managed at hm ⊢
  rwa [hcfg]

theorem lanes_keep (h : WholeLaw mode m) (hact : ∀ a, m'.act a = m.act a)
    (hlane : ∀ j, Becomes mode' (m.lane j) (m'.lane j)) (hmode : mode' ≠ .run → mode ≠ .run) : WholeLaw mode' m' :=
  h.alike (fun a => by rw [hact]; exact h.acts a) (movesFrom_managed h.managed (fun a => by rw [hact]) fun j => (hlane j).moves)
    (fun j => (hlane j).law) (fun a => by rw [hact]; exact .refl _) (fun j => (hlane j).runs) hmode

/-- One lane written. -/
theorem laneWritten_keeps {free : Nat} {queue : List QEntry} (h : WholeLaw mode e.m) (hx : Becomes mode (e.m.lane l) x) :
    WholeLaw mode (laneWritten l x free queue e).m := by
  refine lanes_keep h (fun _ => rfl) (fun j => ?_) id
  by_cases hj : j = l
  · subst hj
    rw [lane_laneWritten]
    exact hx
  · have hsame : (laneWritten l x free queue e).m.lane j = e.m.lane j := lane_setLane_ne _ _ _ _ hj
    rw [hsame]
    exact .refl (h.lanes j)

theorem setLane_keeps (h : WholeLaw mode e.m) (hx : Becomes mode (e.m.lane l) x) : WholeLaw mode (e.setLane l x).m :=
  laneWritten_keeps (free := e.m.poolFree) (queue := e.m.queue) h hx

theorem same_keeps (h : WholeLaw mode m) (hacts : m'.acts = m.acts) (hlanes : m'.lanes = m.lanes) : WholeLaw mode m' :=
  lanes_keep h (fun a => congrArg (·.get a) hacts)
    (fun j => by rw [show m'.lane j = m.lane j from congrArg (·.get j) hlanes]; exact .refl (h.lanes j)) id

/-! ## Lanes that evaluate, queue, and are held -/

theorem evaluatedIn_not_running {ln : Lane} (hs : ln.steps ≠ []) : (evaluatedIn mode ln).state ≠ .running := by
  obtain h | h := evaluatedIn_state (mode := mode) hs <;> simp [h]

theorem evaluated_becomes {ln y : Lane} (hl : Loose y) (hs : y.steps ≠ []) (hln : ln.state ≠ .running)
    (hm : MovesFrom ln y) : Becomes mode ln (evaluatedIn mode y) :=
  .idle (hl.evaluated hs mode) (evaluatedIn_not_running hs) hln (hm.trans (evaluatedIn_moves mode y))

theorem headDropped_becomes {ln y : Lane} (hl : Loose y) (hln : ln.state ≠ .running) (hm : MovesFrom ln y) :
    Becomes mode ln (headDropped mode y) := by
  refine .idle (hl.headDropped mode) ?_ hln ?_
  · unfold headDropped
    split
    · exact nofun
    · next hs => exact evaluatedIn_not_running hs
  · unfold headDropped
    split
    · exact hm
    · exact hm.trans (evaluatedIn_moves mode y)

theorem held_becomes {ln : Lane} {st : LaneState} (h : LaneLaw mode' ln) (hw : HeadWaits mode st .held)
    (hln : ln.state = .waiting ∨ ln.state = .queued) : Becomes mode ln (heldLane st ln) := by
  have hloose : Loose ln := LaneLaw.loose h (by obtain h | h := hln <;> simp [h]) (by obtain h | h := hln <;> simp [h])
  have hs : ln.steps ≠ [] :=
    LaneLaw.steps_ne_nil h (by obtain h | h := hln <;> simp [h]) (by obtain h | h := hln <;> simp [h])
  refine .idle (hloose.held hs hw) ?_ (by obtain h | h := hln <;> simp [h])
    (mapHead_moves (f := fun h => { h with run := .held }) (fun _ => rfl) ln)
  cases hw <;> exact nofun

theorem queued_becomes {ln : Lane} (h : LaneLaw mode ln) (hw : ln.state = .waiting) (hs : ln.steps ≠ []) :
    Becomes mode ln (queuedLane ln) := by
  have hloose : Loose ln := LaneLaw.loose h (by simp [hw]) (by simp [hw])
  refine .idle (hloose.queues hs mode) (by rw [(queuedLane_fields hs).1]; exact nofun) (by simp [hw]) ?_
  unfold queuedLane
  intro g hg
  split at hg
  · next hnil => exact absurd hnil hs
  · next h rest hsteps =>
    rw [hsteps]
    obtain rfl | hg := List.mem_cons.mp hg
    · exact ⟨h, List.mem_cons_self .., rfl⟩
    · exact ⟨g, List.mem_cons_of_mem _ hg, rfl⟩

theorem joinQueue_keeps (h : WholeLaw mode e.m) (hw : (e.m.lane l).state = .waiting) : WholeLaw mode (e.joinQueue l).m := by
  have hs : (e.m.lane l).steps ≠ [] := LaneLaw.steps_ne_nil (h.lanes l) (by simp [hw]) (by simp [hw])
  rw [joinQueue_eq hs]
  exact laneWritten_keeps h (queued_becomes (h.lanes l) hw hs)

theorem joinReached_keeps {v : Env} (h : WholeLaw mode e.m) : WholeLaw mode (e.joinReached v l).m := by
  unfold Event.joinReached
  split
  · next hjoin =>
    refine joinQueue_keeps h ?_
    simp only [Bool.and_eq_true] at hjoin
    have htime := hjoin.2
    rw [timeUp_eq] at htime
    simp only [waitOver, Bool.and_eq_true, beq_iff_eq] at htime
    exact htime.1
  · exact h

theorem foldl_keeps {α : Type} {f : Event → α → Event} (hf : ∀ e x, WholeLaw mode e.m → WholeLaw mode (f e x).m)
    (xs : List α) : ∀ e : Event, WholeLaw mode e.m → WholeLaw mode (xs.foldl f e).m := by
  induction xs with
  | nil => exact fun _ h => h
  | cons x xs ih => exact fun e h => ih _ (hf e x h)

/-! ## Mode control -/

theorem dropped_law {ln : Lane} (h : LaneLaw mode ln) (hmode : mode' ≠ .run) : LaneLaw mode' (droppedLane ln) := by
  unfold droppedLane
  split
  · next hw => exact (held_becomes h (.heldInWaiting hmode) hw).law
  · next hw => exact LaneLaw.of_mode h fun hst => absurd (.inl hst) hw

theorem dropped_moves (ln : Lane) : MovesFrom ln (droppedLane ln) := by
  unfold droppedLane
  split
  · exact mapHead_moves (f := fun h => { h with run := .held }) (fun _ => rfl) ln
  · exact .of_subset fun _ => id

theorem halted_law {ln : Lane} (h : LaneLaw mode ln) (hmode : mode' ≠ .run) :
    LaneLaw mode' (haltOutcome ln) ∧ (haltOutcome ln).state ≠ .running ∧ MovesFrom ln (haltOutcome ln) := by
  have hsteps : ln.state = .running → ln.steps ≠ [] := fun hr =>
    LaneLaw.steps_ne_nil h (by simp [hr]) (by simp [hr])
  unfold haltOutcome
  rw [if_neg fun hh => hsteps hh.1 hh.2]
  unfold haltedLane
  have hother : ln.state ≠ .waiting → LaneLaw mode' ln := fun hw => LaneLaw.of_mode h fun hst => absurd hst hw
  cases hst : ln.state with
  | running =>
    dsimp only
    cases hs : ln.steps with
    | nil => exact absurd hs (hsteps hst)
    | cons g rest =>
      refine ⟨?_, nofun, mapHead_moves (f := fun h => { h with run := .aborted }) (fun _ => rfl) ln⟩
      rw [mapHead_cons _ _ g rest hs]
      exact LaneLaw.faults (k := { g with run := .aborted }) (c := .halted) (failed := none) h hs rfl (by simp) (by simp)
  | waiting =>
    have hb := held_becomes h (mode := mode') (.heldInWaiting hmode) (.inl hst)
    exact ⟨hb.law, nofun, hb.moves⟩
  | queued =>
    have hb := held_becomes h (mode := mode') (.heldInWaiting hmode) (.inr hst)
    exact ⟨hb.law, nofun, hb.moves⟩
  | empty | paused | faulted => exact ⟨hother (by simp [hst]), by simp [hst], .of_subset fun _ => id⟩

theorem haltAll_keeps {v : Env} (h : WholeLaw mode e.m) (hv : v.mode ≠ .run) : WholeLaw v.mode (e.haltAll v).m := by
  have ho := haltAll_ordered v e
  have hact : ∀ a, SafeTaken (e.m.act a) ((e.m.act a).safeAct (v.view a)) := fun a => safeAct_taken _ (h.acts a)
  refine .of_still (fun a => ?_) (movesFrom_managed h.managed (fun a => ?_) fun l => ?_) (fun l => ?_) (fun l => ?_)
    fun a l => ?_
  · rw [ho.act]
    exact (hact a).law
  · rw [ho.act]
    exact (hact a).cfg
  · rw [ho.lane]
    exact (halted_law (h.lanes l) hv).2.2
  · rw [ho.lane]
    exact (halted_law (h.lanes l) hv).1
  · rw [ho.lane]
    exact (halted_law (h.lanes l) hv).2.1
  · rw [ho.act]
    exact (hact a).owner l

theorem entersRun_keeps {v w : Env} (h : WholeLaw mode e.m) (hmode : mode ≠ .run) (hw : w.mode = mode)
    (hv : v.mode = .run) :
    WholeLaw v.mode (allLanes.foldl (fun e l => e.wakeLane v l)
      (allActs.foldl (fun e a => e.act w a Actuator.enterRun) e)).m := by
  have hentered := HeartLaw.foldl_act (v := w) (f := Actuator.enterRun) (fun w x => enterRun_acted w) allActs e (hw ▸ h)
  generalize allActs.foldl (fun e a => e.act w a Actuator.enterRun) e = f at hentered ⊢
  rw [hw] at hentered
  obtain ⟨hacts, hlanes, _⟩ :=
    foldl_lanes (fun l e => e.wakeLane v l) (fun _ => wokenLane) wokenEntry (wakeLane_eq hv) allLanes allLanes_nodup f
  generalize allLanes.foldl (fun e l => e.wakeLane v l) f = g at hacts hlanes ⊢
  have hact : ∀ a, g.m.act a = f.m.act a := fun a => congrArg (·.get a) hacts
  have hlane : ∀ l, g.m.lane l = wokenLane (f.m.lane l) := fun l => (hlanes l).trans (if_pos (mem_allLanes l))
  rw [hv]
  refine lanes_keep hentered hact (fun l => ?_) fun hne => absurd rfl hne
  rw [hlane]
  have hidle := hentered.outside hmode l
  unfold wokenLane
  split
  · next hwait =>
    have hloose := LaneLaw.loose (hentered.lanes l) hidle (by simp [hwait])
    have hs := LaneLaw.steps_ne_nil (hentered.lanes l) (by simp [hwait]) (by simp [hwait])
    have hb := evaluated_becomes (mode := .run) hloose hs hidle (.of_subset fun _ => id)
    exact hb
  · next hwait =>
    exact .idle (LaneLaw.of_mode (hentered.lanes l) fun hst => absurd hst hwait) hidle hidle (.of_subset fun _ => id)

theorem leavesRun_keeps (h : WholeLaw mode e.m) (hmode : mode' ≠ .run) (hrunning : ∀ l, (e.m.lane l).state ≠ .running)
    (howner : ∀ a, (e.m.act a).owner = .none) :
    WholeLaw mode' (allLanes.foldl (fun e l => e.dropLane l) e.clearQueue).m := by
  obtain ⟨f, hf, hacts, hlanes, _⟩ := foldl_leaveRun e
  have hact : ∀ a, f.m.act a = e.m.act a := fun a => congrArg (·.get a) hacts
  rw [hf]
  refine .of_still (fun a => by rw [hact]; exact h.acts a) (movesFrom_managed h.managed (fun a => by rw [hact]) fun l => ?_)
    (fun l => ?_) (fun l => ?_) fun a l => ?_
  · rw [hlanes]
    exact dropped_moves _
  · rw [hlanes]
    exact dropped_law (h.lanes l) hmode
  · rw [hlanes]
    unfold droppedLane
    split
    · exact nofun
    · exact hrunning l
  · rw [hact, howner]
    exact nofun

/-! ## Requests to a lane -/

/-- A lane that keeps its head, some of its other steps gone. -/
theorem keepSteps_keeps {steps : List Machine.Step} (h : WholeLaw mode e.m) (hhead : steps.head? = (e.m.lane l).steps.head?)
    (htail : ∀ g ∈ steps.tail, g ∈ (e.m.lane l).steps.tail) (hlen : steps.length ≤ (e.m.lane l).steps.length) :
    WholeLaw mode (e.keepSteps l steps).m := by
  rw [keepSteps_eq (n := (e.m.lane l).steps.length - steps.length) (by omega)]
  refine laneWritten_keeps h ⟨LaneLaw.keeps_head (h.lanes l) hhead fun g hg => ?_, .of_head rfl rfl hhead,
    .of_subset fun g hg => ?_⟩
  · obtain ⟨hlaw, _, hrun⟩ := held_unstarted (h.lanes l) (htail g hg)
    exact ⟨hlaw, hrun⟩
  · have hg' : g ∈ steps := hg
    cases steps with
    | nil => cases hg'
    | cons k rest =>
      obtain rfl | hmem := List.mem_cons.mp hg'
      · exact List.mem_of_mem_head? (hhead ▸ rfl)
      · exact List.mem_of_mem_tail (htail g hmem)

/-- The loose lane that a head leaves behind. -/
theorem tail_loose {ln : Lane} (h : LaneLaw mode ln) (hr : ln.state ≠ .running) (hf : ln.state ≠ .faulted) :
    Loose { ln with steps := ln.steps.tail } := by
  have hl := LaneLaw.loose h hr hf
  exact LaneLaw.tail_loose (extra := []) h (List.append_nil _).symm (fun _ hg => absurd hg List.not_mem_nil) hl.pause
    hl.fault hl.failedAct

theorem dropHead_keeps_law {v : Env} {h : Machine.Step} {rest : List Machine.Step} (hl : WholeLaw v.mode e.m)
    (hr : (e.m.lane l).state ≠ .running) (hf : (e.m.lane l).state ≠ .faulted) (hs : (e.m.lane l).steps = h :: rest) :
    WholeLaw v.mode (e.dropHead v l).m := by
  have hloose := tail_loose (hl.lanes l) hr hf
  rw [hs] at hloose
  rw [dropHead_eq hs rfl]
  refine laneWritten_keeps hl (headDropped_becomes hloose hr (.of_subset fun g hg => ?_))
  rw [hs]
  exact List.mem_cons_of_mem _ hg

theorem mem_of_dropTag {tag : Tag} : ∀ {steps kept : List Machine.Step}, dropTag tag steps = some kept →
    ∀ g ∈ kept, g ∈ steps
  | [], _, h => by cases h
  | k :: rest, kept, h => by
    unfold dropTag at h
    split at h
    · obtain rfl := Option.some.inj h
      exact fun g hg => List.mem_cons_of_mem _ hg
    · obtain ⟨kept', hkept, rfl⟩ := Option.map_eq_some_iff.mp h
      intro g hg
      obtain rfl | hg := List.mem_cons.mp hg
      · exact List.mem_cons_self ..
      · exact List.mem_cons_of_mem _ (mem_of_dropTag hkept g hg)

theorem cancel_keeps {v : Env} {tag : Tag} {e' : Event} (hl : WholeLaw v.mode e.m) (hc : e.cancel v l tag = some e') :
    WholeLaw v.mode e'.m := by
  unfold Event.cancel at hc
  split at hc
  · cases hc
  · next h rest hs =>
    split at hc
    · next hhead =>
      simp only [Bool.and_eq_true, Bool.not_eq_true'] at hhead
      obtain ⟨_, hkept⟩ := hhead
      have hr : (e.m.lane l).state ≠ .running := fun hst => by simp [Lane.headKept, hst] at hkept
      have hf : (e.m.lane l).state ≠ .faulted := fun hst => by simp [Lane.headKept, hst] at hkept
      split at hc
      · next hp =>
        obtain rfl := Option.some.inj hc
        have hpaused : (e.m.lane l).state = .paused := eq_of_beq hp
        have hloose := tail_loose (hl.lanes l) hr hf
        have htimer := LaneLaw.timer_none (hl.lanes l) (by simp [hpaused])
        rw [hs] at hloose
        rw [keepSteps_eq (n := 1) (by rw [hs]; rfl)]
        have hlaw := hloose.paused (fun g hg => (held_unstarted (hl.lanes l) (by rw [hs]; exact hg)).2.2) htimer v.mode
        have hsame : ({ e.m.lane l with state := .paused, steps := rest } : Lane) = { e.m.lane l with steps := rest } := by
          rw [← hpaused]
        refine laneWritten_keeps hl (.idle (hsame ▸ hlaw) (by simp [hpaused]) hr (.of_subset fun g hg => ?_))
        rw [hs]
        exact List.mem_cons_of_mem _ hg
      · obtain rfl := Option.some.inj hc
        exact dropHead_keeps_law hl hr hf hs
    · obtain ⟨kept, hkept, rfl⟩ := Option.map_eq_some_iff.mp hc
      have hlen := dropTag_length hkept
      refine keepSteps_keeps hl (by rw [hs]; rfl) (fun g hg => ?_) (by rw [hs]; simp; omega)
      rw [hs]
      exact mem_of_dropTag hkept g hg

/-- A lane that has started no step loses them all (R62). -/
theorem emptied_becomes {ln : Lane} (h : LaneLaw mode ln) (hr : ln.state ≠ .running) (hf : ln.state ≠ .faulted)
    {st : LaneState} (hst : st = .empty ∨ st = .paused) :
    Becomes mode ln { ln with steps := [], state := st, delayTimer := none } := by
  have hl := LaneLaw.loose h hr hf
  have hloose : Loose { ln with steps := [], delayTimer := none } :=
    ⟨fun _ hg => absurd hg List.not_mem_nil, fun _ hg => absurd hg List.not_mem_nil, hl.pause, hl.fault, hl.failedAct⟩
  refine .idle (hloose.law_nil rfl rfl hst) ?_ hr fun g hg => absurd hg List.not_mem_nil
  obtain rfl | rfl := hst <;> exact nofun

theorem flush_keeps (h : WholeLaw mode e.m) : WholeLaw mode (e.flush l).m := by
  have htake : WholeLaw mode (e.keepSteps l ((e.m.lane l).steps.take 1)).m := by
    refine keepSteps_keeps h ?_ (fun g hg => ?_) (by simp)
    · cases (e.m.lane l).steps <;> rfl
    · cases hs : (e.m.lane l).steps with
      | nil => simp [hs] at hg
      | cons k rest => simp [hs] at hg
  cases hst : (e.m.lane l).state with
  | running | faulted => simpa [Event.flush, hst] using htake
  | paused =>
    have hflush : e.flush l = laneWritten l { e.m.lane l with steps := [] }
        (e.m.poolFree + (e.m.lane l).steps.length) e.m.queue e := by
      simpa [Event.flush, hst] using
        keepSteps_eq (l := l) (e := e) (steps := []) (n := (e.m.lane l).steps.length) (by simp)
    have htimer := LaneLaw.timer_none (h.lanes l) (by simp [hst])
    have hb := emptied_becomes (h.lanes l) (by simp [hst]) (by simp [hst]) (.inr rfl)
    rw [← hst, ← htimer] at hb
    rw [hflush]
    exact laneWritten_keeps h hb
  | empty => simpa [Event.flush, hst] using h
  | waiting | queued =>
    rw [flush_of_waiting (by simp [hst])]
    exact laneWritten_keeps h (emptied_becomes (h.lanes l) (by simp [hst]) (by simp [hst]) (.inl rfl))

theorem holdLane_keeps (h : WholeLaw mode e.m) (hst : (e.m.lane l).state = .waiting ∨ (e.m.lane l).state = .queued) :
    WholeLaw mode (e.holdLane l .paused).m := by
  rw [holdLane_eq]
  exact laneWritten_keeps h (held_becomes (h.lanes l) .paused hst)

theorem pause_keeps {e' : Event} (h : WholeLaw mode e.m) (hc : e.pause l = some e') : WholeLaw mode e'.m := by
  cases hst : (e.m.lane l).state with
  | paused | faulted => simp [Event.pause, hst] at hc
  | empty =>
    obtain rfl : e.setLane l { e.m.lane l with state := .paused } = e' := by simpa [Event.pause, hst] using hc
    have hloose := LaneLaw.loose (h.lanes l) (by simp [hst]) (by simp [hst])
    have htimer := LaneLaw.timer_none (h.lanes l) (by simp [hst])
    exact setLane_keeps h (.idle (hloose.law_nil (LaneLaw.steps_nil (h.lanes l) hst) htimer (.inr rfl)) nofun (by simp [hst])
      (.of_subset fun _ => id))
  | waiting | queued =>
    obtain rfl : e.holdLane l .paused = e' := by simpa [Event.pause, hst] using hc
    exact holdLane_keeps h (by simp [hst])
  | running =>
    obtain rfl : e.setLane l { e.m.lane l with pausePending := true } = e' := by simpa [Event.pause, hst] using hc
    obtain ⟨hsteps, htail, hnone, hfits, _, hfault, hfailed, hdelay⟩ := h.lanes l
    exact setLane_keeps h ⟨⟨hsteps, htail, hnone, hfits, fun _ => hst, hfault, hfailed, hdelay⟩, .of_head rfl rfl rfl,
      .of_subset fun _ => id⟩

/-- A FAULTED lane without its fault, its steps the others and what its head becomes. -/
theorem unfaulted_loose {ln : Lane} (h : LaneLaw mode ln) (hst : ln.state = .faulted) {steps : List Machine.Step}
    (hsteps : ∀ g ∈ steps, StepLaw g ∧ Unstarted g) (htail : ∀ g ∈ steps.tail, g.run = .held) :
    Loose { ln with fault := none, failedAct := none, steps := steps } := by
  obtain ⟨_, _, _, _, hpause, _⟩ := h
  exact ⟨hsteps, htail, by simpa [hst] using mt hpause, rfl, rfl⟩

theorem resume_keeps {v : Env} {skip : Bool} {e' : Event} (h : WholeLaw v.mode e.m) (hfits : QueueFits v.mode e.m)
    (hc : e.resume v l skip = some e') : WholeLaw v.mode e'.m := by
  cases hst : (e.m.lane l).state with
  | empty | waiting | queued | running => simp [Event.resume, hst] at hc
  | paused =>
    have hloose := LaneLaw.loose (h.lanes l) (by simp [hst]) (by simp [hst])
    by_cases hs : (e.m.lane l).steps = []
    · rw [resume_of_paused_empty hst hs] at hc
      obtain rfl := Option.some.inj hc
      have htimer := LaneLaw.timer_none (h.lanes l) (by simp [hst])
      exact setLane_keeps h (.idle (hloose.law_nil hs htimer (.inl rfl)) nofun (by simp [hst]) (.of_subset fun _ => id))
    · rw [resume_of_paused hst hs] at hc
      obtain rfl := Option.some.inj hc
      exact laneWritten_keeps h (evaluated_becomes hloose hs (by simp [hst]) (.of_subset fun _ => id))
  | faulted =>
    cases hs : (e.m.lane l).steps with
    | nil => exact absurd hs (LaneLaw.steps_ne_nil (h.lanes l) (by simp [hst]) (by simp [hst]))
    | cons g rest =>
      have htail : ∀ k ∈ rest, StepLaw k ∧ Unstarted k ∧ k.run = .held := fun k hk =>
        held_unstarted (h.lanes l) (by rw [hs]; exact hk)
      cases skip with
      | true =>
        have hq : ∀ q ∈ e.m.queue, q.lane ≠ l := by
          refine entries_eq_zero.mp ((hfits l).1.trans (if_neg ?_))
          simp [hst]
        have hloose := unfaulted_loose (h.lanes l) hst (steps := rest) (fun k hk => ⟨(htail k hk).1, (htail k hk).2.1⟩)
          fun k hk => (htail k (List.mem_of_mem_tail hk)).2.2
        rw [resume_skip hst hs rfl hq] at hc
        obtain rfl := Option.some.inj hc
        refine laneWritten_keeps h (headDropped_becomes hloose (by simp [hst]) (.of_subset fun k hk => ?_))
        rw [hs]
        exact List.mem_cons_of_mem _ hk
      | false =>
        have hagain := again_law (StepLaw.moves ((h.lanes l).1 g (by simp [hs])))
        have hloose := unfaulted_loose (h.lanes l) hst (steps := g.again :: rest) (fun k hk => by
          obtain rfl | hk := List.mem_cons.mp hk
          · exact hagain
          · exact ⟨(htail k hk).1, (htail k hk).2.1⟩) fun k hk => (htail k hk).2.2
        rw [resume_retry hst hs rfl] at hc
        obtain rfl := Option.some.inj hc
        refine laneWritten_keeps h (evaluated_becomes hloose (List.cons_ne_nil _ _) (by simp [hst]) fun k hk => ?_)
        rw [hs]
        obtain rfl | hk := List.mem_cons.mp hk
        · exact ⟨g, List.mem_cons_self .., rfl⟩
        · exact ⟨k, List.mem_cons_of_mem _ hk, rfl⟩

theorem abort_keeps {v : Env} {e' : Event} (h : WholeLaw mode e.m) (hc : e.abort v l = some e') : WholeLaw mode e'.m := by
  cases hst : (e.m.lane l).state with
  | empty | paused | faulted => simp [Event.abort, hst] at hc
  | waiting | queued =>
    obtain rfl : e.holdLane l .paused = e' := by simpa [Event.abort, hst] using hc
    exact holdLane_keeps h (by simp [hst])
  | running =>
    obtain rfl : e.abortStep v l = e' := by simpa [Event.abort, hst] using hc
    cases hs : (e.m.lane l).steps with
    | nil => exact absurd hs (LaneLaw.steps_ne_nil (h.lanes l) (by simp [hst]) (by simp [hst]))
    | cons g rest =>
      have ha := abortStep_aborts hs v
      have hopen := HeartLaw.reopen h l
      refine hopen.givesUp ha.others (fun b => ?_) ?_ ?_ ?_
      · rw [ha.act]
        exact hopen.abortedAct_givesUp (hopen.runsStep hst hs) _ b
      · rw [ha.lane]
        exact LaneLaw.faults (k := { allStopped g with run := .aborted }) (c := .aborted) (failed := none) (h.lanes l) hs rfl
          (by simp) (by simp)
      · rw [ha.lane]
        exact nofun
      · rw [ha.lane, hs]
        intro k hk
        obtain rfl | hk := List.mem_cons.mp hk
        · exact ⟨g, List.mem_cons_self .., rfl⟩
        · exact ⟨k, List.mem_cons_of_mem _ hk, rfl⟩

/-! ## Posting and expiries -/

/-- A posted step, tested against the time, has started nothing. -/
theorem posted_step {h : Machine.Step} (hp : Postable m h) (now : Time) :
    StepLaw (reachedAt now h) ∧ Unstarted (reachedAt now h) ∧ (reachedAt now h).run = .held ∧
      (reachedAt now h).moves = h.moves := by
  obtain ⟨b, hb⟩ := testReached_only now h
  rw [testReached_eq] at hb
  rw [hb]
  have hmoves : MovesLaw { h with reached := b } := ⟨hp.some_move, hp.at_most_eight, hp.distinct⟩
  have hrun : ({ h with reached := b } : Machine.Step).run ≠ .running := by rw [hp.held]; exact nofun
  exact ⟨hmoves.unstarted hp.fresh hrun, hp.fresh, hp.held, rfl⟩

/-- One lane written whose steps move managed actuators. -/
theorem laneWritten_managed {free : Nat} {queue : List QEntry} (h : WholeLaw mode e.m) (hlaw : LaneLaw mode x)
    (hruns : RunsAlike (e.m.lane l) x) (hm : ∀ g ∈ x.steps, ∀ mv ∈ g.moves, (e.m.act mv.act).managed = true) :
    WholeLaw mode (laneWritten l x free queue e).m := by
  have hlanes : ∀ j, j ≠ l → (laneWritten l x free queue e).m.lane j = e.m.lane j := fun j hj =>
    lane_setLane_ne _ _ _ _ hj
  refine h.alike h.acts (fun j g hg => ?_) (fun j => ?_) (fun a => .refl _) (fun j => ?_) id
  · by_cases hj : j = l
    · subst hj
      rw [lane_laneWritten] at hg
      exact hm g hg
    · rw [hlanes j hj] at hg
      exact h.managed j g hg
  · by_cases hj : j = l
    · subst hj
      rw [lane_laneWritten]
      exact hlaw
    · rw [hlanes j hj]
      exact h.lanes j
  · by_cases hj : j = l
    · subst hj
      rw [lane_laneWritten]
      exact hruns
    · rw [hlanes j hj]
      exact .refl _

theorem post_keeps {v : Env} {h : Machine.Step} (hl : WholeLaw v.mode e.m) (hp : Postable e.m h) :
    WholeLaw v.mode (e.post v l h).m := by
  obtain ⟨hlaw, hunstarted, hheld, hmoves⟩ := posted_step hp v.time
  have hmanaged : ∀ g ∈ (e.m.lane l).steps ++ [reachedAt v.time h], ∀ mv ∈ g.moves,
      (e.m.act mv.act).managed = true := fun g hg mv hmv => by
    obtain hg | hg := List.mem_append.mp hg
    · exact hl.managed l g hg mv hmv
    · obtain rfl := List.mem_singleton.mp hg
      rw [hmoves] at hmv
      exact hp.managed mv hmv
  by_cases hst : (e.m.lane l).state = .empty
  · have hnil := LaneLaw.steps_nil (hl.lanes l) hst
    have hold := LaneLaw.loose (hl.lanes l) (by simp [hst]) (by simp [hst])
    have hloose : Loose { e.m.lane l with steps := (e.m.lane l).steps ++ [reachedAt v.time h] } := by
      refine ⟨fun g hg => ?_, fun g hg => ?_, hold.pause, hold.fault, hold.failedAct⟩
      · rw [hnil] at hg
        obtain rfl := List.mem_singleton.mp hg
        exact ⟨hlaw, hunstarted⟩
      · rw [hnil] at hg
        cases hg
    have hs : ({ e.m.lane l with steps := (e.m.lane l).steps ++ [reachedAt v.time h] } : Lane).steps ≠ [] := by simp
    rw [post_alone hst rfl]
    refine laneWritten_managed hl (hloose.evaluated hs v.mode)
      (.of_not_running (evaluatedIn_not_running hs) (by simp [hst])) fun g hg mv hmv => ?_
    obtain ⟨k, hk, hgk⟩ := evaluatedIn_moves v.mode _ g hg
    exact hmanaged k hk mv (hgk ▸ hmv)
  · have hhead : LaneLaw v.mode { e.m.lane l with steps := (e.m.lane l).steps ++ [reachedAt v.time h] } := by
      cases hs : (e.m.lane l).steps with
      | nil =>
        have hpaused : (e.m.lane l).state = .paused := ((hl.lanes l).2.2.1 hs).resolve_left hst
        have hold := LaneLaw.loose (hl.lanes l) (by simp [hpaused]) (by simp [hpaused])
        have hloose : Loose { e.m.lane l with steps := [reachedAt v.time h] } := by
          refine ⟨fun g hg => ?_, fun _ hg => absurd hg List.not_mem_nil, hold.pause, hold.fault, hold.failedAct⟩
          obtain rfl := List.mem_singleton.mp hg
          exact ⟨hlaw, hunstarted⟩
        have htimer := LaneLaw.timer_none (hl.lanes l) (by simp [hpaused])
        have hlaw' := hloose.paused (fun g hg => by
          obtain rfl := List.mem_singleton.mp hg
          exact hheld) htimer v.mode
        rw [← hpaused] at hlaw'
        exact hlaw'
      | cons g rest =>
        rw [List.cons_append]
        refine LaneLaw.keeps_head (hl.lanes l) (by rw [hs]; rfl) fun k hk => ?_
        obtain hk | hk := List.mem_append.mp hk
        · obtain ⟨hkl, _, hkr⟩ := held_unstarted (hl.lanes l) (by rw [hs]; exact hk)
          exact ⟨hkl, hkr⟩
        · obtain rfl := List.mem_singleton.mp hk
          exact ⟨hlaw, hheld⟩
    rw [post_behind hst]
    refine laneWritten_managed hl hhead ⟨Iff.rfl, fun _ => rfl, fun _ g rest hs => ?_⟩ hmanaged
    exact ⟨g, rest ++ [reachedAt v.time h], by simp [hs], rfl, rfl⟩

theorem delayOver_keeps (h : WholeLaw mode e.m) : WholeLaw mode (e.setLane l { e.m.lane l with delayTimer := none }).m := by
  obtain ⟨hsteps, htail, hnone, hfits, hpause, hfault, hfailed, _⟩ := h.lanes l
  exact setLane_keeps h ⟨⟨hsteps, htail, hnone, hfits, hpause, hfault, hfailed, nofun⟩, .of_head rfl rfl rfl,
    .of_subset fun _ => id⟩

/-- A start limit runs for a QUEUED lane alone: its head fails (R85). -/
theorem limitOver_keeps (h : WholeLaw mode e.m) (hfits : QueueFits mode e.m) (hd : e.m.limitDue l = true) :
    WholeLaw mode ((e.leaveQueue l).faultLane l .failed .startLimit none).m := by
  have hq : (e.m.lane l).state = .queued := by
    by_contra hq
    exact entries_ne_zero_of_due hd ((hfits l).1.trans (if_neg hq))
  cases hs : (e.m.lane l).steps with
  | nil => exact absurd hs (LaneLaw.steps_ne_nil (h.lanes l) (by simp [hq]) (by simp [hq]))
  | cons g rest =>
    have hfault := faultLane_eq (l := l) (e := e.leaveQueue l) (h := g) (rest := rest) hs .failed .startLimit none
    have hleft : WholeLaw mode (e.leaveQueue l).m := same_keeps h rfl rfl
    rw [hfault, m_raise]
    refine setLane_keeps hleft (.idle ?_ nofun ?_ fun k hk => ?_)
    · exact LaneLaw.faults (k := { g with run := .failed }) (c := .startLimit) (failed := none) (h.lanes l) hs rfl (by simp)
        (by simp)
    · have hq' : ((e.leaveQueue l).m.lane l).state = .queued := hq
      rw [hq']
      exact nofun
    · have hs' : ((e.leaveQueue l).m.lane l).steps = g :: rest := hs
      rw [hs']
      obtain rfl | hk := List.mem_cons.mp hk
      · exact ⟨g, List.mem_cons_self .., rfl⟩
      · exact ⟨k, List.mem_cons_of_mem _ hk, rfl⟩

/-! ## Requests to the actuators -/

/-- A jog starts a move that is no lane's. -/
theorem jog_keeps {v : Env} {a : ActIx} {target : MoveTarget} (h : WholeLaw v.mode e.m) (ho : (e.m.act a).owner = .none)
    (hr : (e.m.act a).state = .rest) : WholeLaw v.mode (e.act v a fun w x => x.startMove w .jog target).m := by
  have hready : Ready (e.m.act a) := (h.acts a).ready (by simp [hr]) (by simp [hr])
  obtain ⟨hlaw, hdoes⟩ := startMove_kept (v.view a) (o := .jog) target nofun hready
  have hnone := (startMove_reportsTo (v.view a) (e.m.act a) .jog target).lane? nofun
  rw [act_unowned hnone]
  generalize (e.m.act a).startMove (v.view a) .jog target = out at hlaw hdoes
  refine HeartLaw.setAct h hlaw ?_ (.of_unowned (by simp [ho]) ?_)
  · cases hdoes with
    | runs hcfg | done hcfg | failed c hcfg => exact hcfg
  · cases hdoes with
    | runs _ howner => exact fun l hl => by cases howner.symm.trans hl
    | done _ howner => exact fun l hl => by cases howner.symm.trans hl
    | failed c _ howner => exact fun l hl => by cases howner.symm.trans hl

/-- A configuration in SETUP: no lane runs, and no step moves an actuator that is no longer managed (R3). -/
theorem configured_keeps {a : ActIx} {c : ActConfig} (v : View) (h : WholeLaw mode m) (hmode : mode ≠ .run)
    (hfree : m.configBusy a c.kind = false) : WholeLaw mode (m.setAct a ((m.act a).configured v c)) := by
  obtain ⟨hlaw, hcfg, howner, _⟩ := configured_lawful v c (m.act a)
  refine .of_still (fun b => ?_) (fun l g hg mv hmv => ?_) h.lanes (h.outside hmode) fun b l ho => ?_
  · by_cases hb : b = a
    · subst hb
      rw [act_setAct_self]
      exact hlaw
    · rw [act_setAct_ne _ _ _ _ hb]
      exact h.acts b
  · by_cases hb : mv.act = a
    · have hkind : c.kind.managed = true := by
        by_contra hkind
        have hany : (m.anyMove fun mw => mw.act == a) = true :=
          List.any_eq_true.mpr ⟨l, mem_allLanes l, List.any_eq_true.mpr ⟨g, hg, List.any_eq_true.mpr ⟨mv, hmv, by simp [hb]⟩⟩⟩
        simp [Motion.configBusy, hkind, hany] at hfree
      rw [hb, act_setAct_self]
      unfold Actuator.managed
      rw [hcfg]
      exact hkind
    · rw [act_setAct_ne _ _ _ _ hb]
      exact h.managed l g hg mv hmv
  · by_cases hb : b = a
    · subst hb
      rw [act_setAct_self, howner] at ho
      cases ho
    · rw [act_setAct_ne _ _ _ _ hb] at ho
      exact h.outside hmode l (h.owners b l ho).1

theorem cleared_keeps {a : ActIx} (v : View) (h : WholeLaw mode m) (hf : (m.act a).state = .faulted) :
    WholeLaw mode (m.setAct a ((m.act a).cleared v)) := by
  obtain ⟨hlaw, hcfg, howner⟩ := cleared_lawful v (h.acts a) hf
  have hunowned : (m.act a).owner = .none := (h.acts a).1.2.2.2.2.1 hf
  exact HeartLaw.setAct h hlaw hcfg (.of_unowned (by simp [hunowned]) (by simp [howner]))

theorem linesSet_keeps {mask values : BitVec 32} (h : WholeLaw mode m) (hm : m.masksManaged mask = false) :
    WholeLaw mode (m.writeLines mask values) := by
  obtain ⟨hlanes, _⟩ := writeLines_frame m mask values
  refine h.acts_only (fun l => congrArg (·.get l) hlanes) fun a => ?_
  rw [act_writeLines]
  refine ⟨lawful_lines (h.acts a) fun hd => ?_, rfl, .of_eq rfl rfl⟩
  have hmanaged : (m.act a).cfg.kind.managed = true := by
    cases hk : (m.act a).cfg.kind <;> simp_all [Kind.double, Kind.managed]
  have hnone : ∀ b, ¬ ((mask.getLsbD (2 * b.val) = true ∧ (m.act b).cfg.kind.managed = true) ∨
      (mask.getLsbD (2 * b.val + 1) = true ∧ (m.act b).cfg.kind.double = true)) := fun b hb =>
    Bool.false_ne_true (hm.symm.trans ((masksManaged_iff m mask).mpr ⟨b, hb⟩))
  have hA : ¬ mask.getLsbD (2 * a.val) = true := fun hbit => hnone a (.inl ⟨hbit, hmanaged⟩)
  have hB : ¬ mask.getLsbD (2 * a.val + 1) = true := fun hbit => hnone a (.inr ⟨hbit, hd⟩)
  exact ⟨if_neg hA, if_neg hB⟩

theorem clearLatch_keeps {k : BankIx} {s : State} (h : WholeLaw mode s.motion) : WholeLaw mode (s.clearLatch k).motion := by
  obtain ⟨hlanes, _⟩ := clearLatch_frame k s
  refine h.acts_only (fun l => congrArg (·.get l) hlanes) fun a => ?_
  rw [act_clearLatch]
  split
  · obtain ⟨hlaw, hcfg, howner, hstate⟩ := unlatched_lawful (h.acts a)
    exact ⟨hlaw, hcfg, .of_eq howner hstate⟩
  · exact ⟨h.acts a, rfl, .refl _⟩

/-! ## The clock -/

theorem testReached_keeps (h : WholeLaw mode m) (now : Time) : WholeLaw mode (m.testReached now) := by
  refine lanes_keep h (fun _ => rfl) (fun l => ?_) id
  rw [lane_testReached]
  exact aged_becomes (testReached_aged now _) (h.lanes l)

theorem shiftEntry_keeps (h : WholeLaw mode m) (by_ : Time) : WholeLaw mode (m.shiftEntry by_) := by
  refine h.acts_only (fun _ => rfl) fun a => ?_
  have hact : (m.shiftEntry by_).act a = { m.act a with entryTime := (m.act a).entryTime + by_ } := by
    simp [Motion.shiftEntry, Motion.act]
  rw [hact]
  exact ⟨h.acts a, rfl, .of_eq rfl rfl⟩

theorem tick_keeps (h : WholeLaw mode m) : WholeLaw mode m.tick := by
  have hact : ∀ a, m.tick.act a = (m.act a).tick := fun a => by simp [Motion.tick, Motion.act]
  refine h.alike (fun a => ?_) (movesFrom_managed h.managed (fun a => ?_) fun l => ?_) (fun l => ?_) (fun a => ?_)
    (fun l => ?_) id
  · rw [hact]
    exact tick_lawful (h.acts a)
  · rw [hact]
    rfl
  · rw [lane_tick]
    exact .of_subset fun _ => id
  · rw [lane_tick]
    exact (tick_aged _).law (h.lanes l)
  · rw [hact]
    exact .of_eq rfl rfl
  · rw [lane_tick]
    exact Aged.runsAlike (tick_aged _)

theorem testPlace_keeps {now : Time} {place : Nat} (h : WholeLaw mode m) :
    WholeLaw mode (m.setLane l ((m.lane l).testPlace now place)) :=
  setLane_keeps (e := { m := m, raised := [], started := [] }) h (aged_becomes (testPlace_aged now place _) (h.lanes l))

/-! ## Every event -/

theorem heart_keeps {v : Env} {e : Event} (hh : Heart m mode v e) (h : WholeLaw mode m) (hfits : QueueFits mode m) :
    WholeLaw v.mode e.m := by
  induction hh with
  | still he hv => exact hv ▸ he ▸ h
  | raise n _ ih => exact ih
  | acts a hf he hv =>
    subst hv he
    exact HeartLaw.act h (actOp_acted _ hf (h.acts a))
  | jogs a target he hv _ howner hrest =>
    subst hv he
    exact jog_keeps h howner hrest
  | latches k he hv =>
    subst hv he
    exact HeartLaw.foldl_act (fun w x => latchSet_acted w) (bankActs k) _ h
  | halts he hv =>
    subst he
    exact haltAll_keeps h (by rw [hv]; exact nofun)
  | delayOver l he hv =>
    subst hv he
    exact delayOver_keeps h
  | limitOver l he hv hd =>
    subst hv he
    exact limitOver_keeps h hfits hd
  | @joins e he hv =>
    subst hv he
    exact foldl_keeps (fun e l h => joinReached_keeps h) allLanes e h
  | @timeTested e l now place he hv =>
    subst hv
    refine joinReached_keeps ?_
    rw [he]
    exact testPlace_keeps h
  | entersRun he hmode hw hv =>
    subst he
    exact entersRun_keeps h hmode hw hv
  | leavesRun he _ hv hrunning howner =>
    subst he
    exact leavesRun_keeps h (by rw [hv]; exact nofun) hrunning howner
  | leavesHalted he hmode hv =>
    subst he
    refine lanes_keep h (fun _ => rfl) (fun l => ⟨LaneLaw.of_mode (h.lanes l) fun _ => ?_, .refl _, .of_subset fun _ => id⟩)
      fun _ => by rw [hmode]; exact nofun
    rw [hmode, hv]
    exact iff_of_false nofun nofun
  | configures a c he hmode hv hfree =>
    subst hv he
    exact configured_keeps _ h (by rw [hmode]; exact nofun) hfree
  | clears a he hv hf =>
    subst hv he
    exact cleared_keeps _ h hf
  | linesSet mask values he hv hmask =>
    subst hv
    rw [he]
    exact linesSet_keeps h hmask
  | latchCleared k hs he hv =>
    subst hv hs
    rw [he]
    exact clearLatch_keeps h
  | @laneConfigured e l policy stop notice he hmode hv =>
    subst hv he
    have hidle := h.outside (by rw [hmode]; exact nofun) l
    exact setLane_keeps h (.idle (x := { e.m.lane l with
      policy := policy, cycleStop := stop, emptyNotice := notice, cycleCount := 0 }) (h.lanes l) hidle hidle
      (.of_subset fun _ => id))
  | posts l hp he hv =>
    subst hv he
    exact post_keeps h hp
  | cancels l tag he hv hc =>
    subst hv he
    exact cancel_keeps h hc
  | flushes l he hv =>
    subst hv he
    exact flush_keeps h
  | pauses l he hv hc =>
    subst hv he
    exact pause_keeps h hc
  | resumes l skip he hv hc =>
    subst hv he
    exact resume_keeps h hfits hc
  | aborts l he hv hc =>
    subst hv he
    exact abort_keeps h hc
  | marks k b he hv =>
    subst hv
    rw [he]
    exact same_keeps h rfl rfl
  | clockSet by_ now he hv =>
    subst hv
    rw [he]
    exact testReached_keeps (shiftEntry_keeps h by_) now

/-! ## Every turn -/

theorem default_actuator_lawful : Lawful Actuator.default :=
  ⟨by unfold ActuatorLaw; decide, fun hd => absurd hd (by decide)⟩

/-- A lane without a step, a pause or a fault. -/
theorem emptied_law (ln : Lane) (mode : Mode) : LaneLaw mode ln.emptied :=
  Loose.law_nil (ln := ln.emptied) ⟨fun _ hg => absurd hg List.not_mem_nil,
    fun _ hg => absurd hg List.not_mem_nil, rfl, rfl, rfl⟩
    rfl rfl (.inl rfl)

theorem blank_whole (hb : Blank m) (hacts : ∀ a, Lawful (m.act a) ∧ (m.act a).owner = .none)
    (hlanes : ∀ l, LaneLaw mode (m.lane l)) : WholeLaw mode m := by
  refine .of_still (fun a => (hacts a).1) (fun l g hg => ?_) hlanes (fun l => ?_) fun a l => ?_
  · rw [(hb.lane l).1] at hg
    cases hg
  · rw [(hb.lane l).2]
    exact nofun
  · rw [(hacts a).2]
    exact nofun

theorem default_whole (mode : Mode) : WholeLaw mode Motion.default := by
  refine blank_whole default_blank (fun a => ?_) fun l => ?_
  · have hact : Motion.default.act a = Actuator.default := by simp [Motion.default, Motion.act]
    rw [hact]
    exact ⟨default_actuator_lawful, rfl⟩
  · have hlane : Motion.default.lane l = Lane.default.emptied := by
      simp [Motion.default, Motion.lane, Lane.emptied, Lane.default]
    rw [hlane]
    exact emptied_law ..

theorem restarted_whole (v : Env) (m : Motion) (mode : Mode) : WholeLaw mode (m.restarted v) := by
  obtain ⟨n, hn⟩ : ∃ n : Motion, n = { m with
    lanes := mapVec Lane.emptied m.lanes, poolFree := Config.poolSize, queue := [], marks := Vector.replicate 8 false } :=
    ⟨_, rfl⟩
  have hfold : m.restarted v = allActs.foldl
      (fun m a => m.setAct a ((m.act a).configured (v.view a) (m.act a).cfg)) n := by
    rw [hn]
    rfl
  have hact : ∀ a, (m.restarted v).act a = (n.act a).configured (v.view a) (n.act a).cfg := fun a => by
    rw [hfold, foldActs_act (fun a x => x.configured (v.view a) x.cfg) allActs allActs_nodup a n, if_pos (mem_allActs a)]
  have hlanes : (m.restarted v).lanes = n.lanes := by
    rw [hfold]
    exact (foldActs_frame (fun a x => x.configured (v.view a) x.cfg) allActs n).1
  refine blank_whole (restarted_blank v m) (fun a => ?_) fun l => ?_
  · rw [hact]
    obtain ⟨hlaw, _, howner, _⟩ := configured_lawful (v.view a) (n.act a).cfg (n.act a)
    exact ⟨hlaw, howner⟩
  · have hlane : (m.restarted v).lane l = (m.lane l).emptied := by simp [Motion.lane, hlanes, hn]
    rw [hlane]
    exact emptied_law ..

end

theorem turn_whole {s t : State} (h : WholeLaw s.modes.mode s.motion) (hfits : QueueFits s.modes.mode s.motion)
    (ht : Turn s t) : WholeLaw t.modes.mode t.motion := by
  cases turn_heartTurn ht with
  | event hs he hmotion hmode =>
    rw [hmotion, hmode]
    exact HeartLaw.arbitrate ((heart_kept he).fits hfits) (heart_keeps he h hfits)
  | opens l hs hrun hw hmotion hmodes =>
    rw [hmotion, hmodes]
    refine joinQueue_keeps (e := s.event) h ?_
    simp only [Lane.waits, Bool.and_eq_true, beq_iff_eq] at hw
    exact hw.1
  | counts hs hmotion hmodes =>
    rw [hmotion, hmodes]
    exact testReached_keeps (tick_keeps h) _
  | aside hmotion hmode =>
    rw [hmotion, hmode]
    exact h
  | cleared hmotion =>
    obtain hm | ⟨v, hm⟩ := hmotion
    · rw [hm]
      exact default_whole _
    · rw [hm]
      exact restarted_whole ..

/-- Settles O55: the law of the heart, kept with that of the start queue by every turn of the part. -/
theorem theActuatorsLawIsKept : Obligations.TheActuatorsLawIsKept := by
  intro s t hacts hlanes hqueue hstep
  have hkept := step_keeps (P := fun s => WholeLaw s.modes.mode s.motion ∧ StartQueueLaw s)
    (fun s t ⟨hwhole, hq⟩ ht => ⟨turn_whole hwhole ((startQueueLaw_iff s).mp hq).1 ht, turn_startQueueLaw hq ht⟩)
    (fun _ _ h => h) ⟨(wholeLaw_iff s).mpr ⟨hacts, hlanes⟩, hqueue⟩ hstep
  exact (wholeLaw_iff t).mp hkept.1

end Sys2Proof.Proofs.HeartTurns
end

section
/-! PROOFS of the family other: the queue of commands, and the resets (R2, R7, R41, R113, R144 to R148). -/

namespace Sys2Proof.Proofs.Resets

open Sys2Proof.Machine Sys2Proof.Safety Sys2Proof.Proofs.QueueAndPool Sys2Proof.Proofs.HeartLaws
open Sys2Proof.Proofs.HeartTurns Sys2Proof.Proofs.LinkLaws Sys2Proof.Proofs.EventRows

/-- Settles O1: a step is the outcome of the front command on the part with that command gone. -/
theorem stepTakesTheFrontCommand : Obligations.StepTakesTheFrontCommand := by
  refine ⟨fun c rest s h => ?_, fun s h => ?_⟩ <;> unfold step <;> rw [h]

/-! ## A hard reset in progress (R147) -/

theorem cut_idle (k : Link) : k.cut.idle = true := by
  unfold Link.cut Link.idle
  cases k.attnSlot <;> rfl

theorem actualLevel_in_reset {s : State} (h : s.modes.inReset ≠ none) (k : BankIx) (b : Bool) :
    s.actualLevel k b = false := by
  unfold State.actualLevel
  cases hr : s.modes.inReset with
  | none => exact absurd hr h
  | some r => simp

theorem beginReset_held (kind : HardReset) (s : State) : HeldInReset s (s.beginReset kind) where
  actual := actualLevel_in_reset (s := s.beginReset kind) (Option.some_ne_none kind)
  notices := rfl
  time := rfl
  rx := rfl
  idle := cut_idle s.link
  rxErrors := rfl
  motion := rfl
  latches := rfl
  inputs := rfl
  haltIn := rfl
  drvflt := rfl
  openEnd := rfl
  pending := rfl

theorem exec_resetAsserted (s : State) :
    exec .resetAsserted s = .next (if s.modes.inReset = some .power then s else s.beginReset .pin) := rfl

/-- Settles O4: the pins and the counts that a hard reset keeps are named, the rest is as it was. -/
theorem powerOnAndResetPinHoldThePart : Obligations.PowerOnAndResetPinHoldThePart := fun s => by
  refine ⟨⟨s.beginReset .power, rfl, rfl, beginReset_held ..⟩, fun h => ⟨s.beginReset .pin, ?_, rfl, beginReset_held ..⟩,
    fun h => ?_⟩
  · rw [exec_resetAsserted, if_neg h]
  · rw [exec_resetAsserted, if_pos h]

/-! ## What acts during a reset (log 15) -/

theorem liveAs_in_reset (p : Bool) (f : State → State) {s : State} (h : s.modes.inReset ≠ none) : s.liveAs p f = s := by
  unfold State.liveAs
  rw [if_pos (Option.isSome_iff_ne_none.mpr h)]

theorem live_in_reset (f : State → State) {s : State} (h : s.modes.inReset ≠ none) : s.live f = s :=
  liveAs_in_reset false f h

/-- Every command but the resets' own and the pins' is an event of the operating part. -/
theorem exec_liveAs {c : Instr} (hc : actsInReset c = false) (s : State) : ∃ p f, exec c s = .next (s.liveAs p f) := by
  cases c
  case powerOn => cases hc
  case resetAsserted => cases hc
  case resetEnd => cases hc
  case inputRawChange => cases hc
  case haltPinChange => cases hc
  case drvfltPinChange => cases hc
  all_goals exact ⟨_, _, rfl⟩

/-- A pin's change during a reset: the pin takes the level, or has it already. -/
theorem pin_in_reset {same : Prop} [Decidable same] {s t : State} {f : State → State} (h : s.modes.inReset ≠ none)
    (hsame : same → t = s) :
    (if same then answered (s.live id) else if s.modes.inReset.isSome then answered t else answered (s.live f)) =
      .next t := by
  rw [live_in_reset id h, if_pos (Option.isSome_iff_ne_none.mpr h)]
  split
  · rw [hsame ‹_›]
    rfl
  · rfl

/-- Settles O5: an event taken while the part operates does nothing in a reset, and the pins change no level. -/
theorem nothingElseActsDuringAReset : Obligations.NothingElseActsDuringAReset := by
  refine ⟨fun c s h hc => ?_, fun i level s h => ⟨s.rawOnly i level, ?_, rfl, ?_, fun j hj => ?_⟩, fun level s h => ?_,
    fun k level s h => ⟨{ s with drvflt := setVec s.drvflt k { s.drvflt.get k with pin := level } }, ?_, rfl, ?_,
      fun j hj => ?_⟩⟩
  · obtain ⟨p, f, hx⟩ := exec_liveAs hc s
    rw [hx, liveAs_in_reset p f h]
  · refine pin_in_reset h fun hsame => ?_
    unfold State.rawOnly State.setInput
    rw [← hsame, setVec_get_id]
  · exact setVec_get_self ..
  · exact setVec_get_ne _ _ _ _ hj
  · refine pin_in_reset h fun hsame => ?_
    rw [← hsame]
  · refine pin_in_reset h fun hsame => ?_
    rw [← hsame, setVec_get_id]
  · exact setVec_get_self ..
  · exact setVec_get_ne _ _ _ _ hj

/-! ## The resets that give every block its default values (R145, R147) -/

@[simp] theorem default_act (a : ActIx) : Motion.default.act a = Actuator.default := by simp [Motion.default, Motion.act]

@[simp] theorem default_lane (l : LaneIx) : Motion.default.lane l = Lane.default := by simp [Motion.default, Motion.lane]

theorem defaulted_afterReset (cause : ResetCause) (straps : BitVec 2) (s : State) :
    AfterReset s (s.defaulted cause straps) where
  lines a := by simp [State.defaulted, Actuator.default]
  owners a := by simp [State.defaulted, Actuator.default]
  entry a := by simp [State.defaulted, Actuator.default]
  actTimers a := by simp [State.defaulted, Actuator.default]
  lanes l := by simp [State.defaulted, Lane.default]
  pool := rfl
  queue := rfl
  marks k := by simp [State.defaulted, Motion.default, Motion.mark]
  waiting := rfl
  stack := rfl
  nextId := rfl
  lost := rfl
  attn := rfl
  latches k := by simp [State.defaulted]
  inputs i := by simp [State.defaulted, Input.default]
  haltIn := rfl
  drvflt k := by simp [State.defaulted, FixedLine.default, Config.drvfltFilter]
  mode := rfl
  haltCause := rfl
  noRestart := rfl
  ended := rfl
  rx := rfl
  seqRecord := rfl
  replies := rfl
  idle := ⟨rfl, rfl⟩
  counts := ⟨rfl, rfl, rfl⟩
  watch := rfl
  tickOwed := rfl
  openEnd := rfl
  pending := rfl

theorem defaulted_defaulted (cause : ResetCause) (straps : BitVec 2) (s : State) :
    Defaulted straps (s.defaulted cause straps) where
  cfg a := by simp [State.defaulted, Actuator.default, ActConfig.default]
  off a := by simp [State.defaulted, Actuator.default]
  lanes l := by simp [State.defaulted, Lane.default]
  classes := rfl
  floor := rfl
  inputs i := by simp [State.defaulted, Input.default]
  time := rfl
  watchSetting := rfl
  speed := rfl

/-- The state after reset is the one that a power-on reset makes of it. -/
theorem reset_defaulted : State.reset.defaulted .power 0 = State.reset := by
  have hinputs : mapVec (fun x => Input.default x.raw) State.reset.inputs = State.reset.inputs :=
    vec_ext fun i => by simp [State.reset, Input.default]
  have hdrvflt : mapVec (fun f => FixedLine.default Config.drvfltFilter f.pin) State.reset.drvflt = State.reset.drvflt :=
    vec_ext fun k => by simp [State.reset, FixedLine.default]
  unfold State.defaulted
  rw [hinputs, hdrvflt]
  rfl

/-- Settles O3: the values after a reset, and the laws on a part that has nothing under way. -/
theorem resetLeavesTheStatedValuesAndTheLaws : Obligations.ResetLeavesTheStatedValuesAndTheLaws := by
  obtain ⟨hacts, hlanes⟩ := (wholeLaw_iff State.reset).mp (default_whole .setup)
  have hvalues := defaulted_afterReset .power 0 State.reset
  have hdefaults := defaulted_defaulted .power 0 State.reset
  rw [reset_defaulted] at hvalues hdefaults
  have hheld : ∀ l, State.reset.motion.held l = 0 := default_blank.held
  refine ⟨⟨hvalues, hdefaults, rfl, rfl⟩, hacts, hlanes, ⟨?_, fun l => ?_⟩,
    (startQueueLaw_iff _).mpr ⟨default_blank.queueFits _, .of_none rfl⟩, ?_, ⟨fun _ => rfl, fun h => absurd rfl h⟩,
    Nat.zero_le _, Bool.noConfusion, Bool.noConfusion⟩
  · rw [hheld, hheld, hheld, hheld]
    rfl
  · rw [hheld]
    exact Nat.zero_le _
  · exact ⟨⟨Nat.zero_le _, .nil⟩, ⟨Nat.zero_le _, .nil, .nil⟩, .nil, List.not_mem_nil, by decide⟩

/-! ## The pending restart takes effect (R144 to R146) -/

theorem restartReplySending_of {s : State} (h : s.link.replySending = true) (hlen : s.link.replies.length = 1) :
    s.restartReplySending = true := by
  unfold State.restartReplySending
  rw [h, hlen]
  rfl

/-- Settles O6: the values that every defaulting reset gives, whatever began it. -/
theorem defaultingResetsGiveDefaultValues : Obligations.DefaultingResetsGiveDefaultValues := by
  refine ⟨fun s k straps hk => ?_, fun s straps h => ?_, fun s straps h hp hs hl =>
    ⟨s.defaulted .restart0 straps, ?_, defaulted_afterReset .., defaulted_defaulted .., rfl⟩⟩
  · cases k with
    | power =>
      refine ⟨s.defaulted .power straps, ?_, defaulted_afterReset .., defaulted_defaulted .., rfl⟩
      show execResetEnd straps s = _
      unfold execResetEnd
      rw [hk]
      rfl
    | pin =>
      refine ⟨s.defaulted .pin straps, ?_, defaulted_afterReset .., defaulted_defaulted .., rfl⟩
      show execResetEnd straps s = _
      unfold execResetEnd
      rw [hk]
      rfl
  · show execResetEnd straps s = _
    unfold execResetEnd
    rw [h.1, live_operating id h]
    rfl
  · show execRestart0TakesEffect straps s = _
    unfold execRestart0TakesEffect
    rw [live_operating _ h, hp, restartReplySending_of hs hl]
    rfl

/-! ## The restart that keeps the configuration (R146) -/

/-- An actuator that a configuration begins with: nothing under way, both lines off. -/
structure Fresh (v : View) (c : ActConfig) (x : Actuator) : Prop where
  lines : x.lineA = false ∧ x.lineB = false
  owner : x.owner = .none ∧ x.fault = none ∧ x.target = none
  entry : x.entryTime = v.time
  timers : x.gapTimer = none ∧ x.travelTimer = none ∧ x.settleTimer = none ∧ x.pulse = none
  cfg : x.cfg = c
  rests : c.kind.managed = true → x.state = .rest ∧ x = tracked v x
  off : c.kind.managed = false → x.state = .off ∧ x.position = .u ∧ x.supervised = false

/-- What the sensors give depends on no position held before. -/
theorem tracked_tracked (v : View) (x : Actuator) : tracked v (tracked v x) = tracked v x := by
  unfold tracked
  cases hr : x.cfg.sensing.reading v.x v.r <;> simp [hr]

theorem configured_fresh (v : View) (c : ActConfig) (a : Actuator) : Fresh v c (a.configured v c) := by
  unfold Actuator.configured
  dsimp only
  by_cases hk : c.kind.managed = true
  · rw [if_pos hk, fromSensors_eq]
    obtain ⟨p, b, hx⟩ := LaneRequests.tracked_fields v { a with
      cfg := c, target := none, owner := .none, fault := none, entryTime := v.time, lineA := false, lineB := false
      gapTimer := none, travelTimer := none, settleTimer := none, pulse := none, state := .rest }
    refine ⟨?_, ?_, ?_, ?_, ?_, fun _ => ⟨?_, (tracked_tracked ..).symm⟩, fun h => absurd (hk.symm.trans h) (by decide)⟩
    all_goals simp [hx]
  · rw [if_neg hk]
    exact ⟨⟨rfl, rfl⟩, ⟨rfl, rfl, rfl⟩, rfl, ⟨rfl, rfl, rfl, rfl⟩, rfl, fun h => absurd h hk, fun _ => ⟨rfl, rfl, rfl⟩⟩

theorem restarted_fresh (v : Env) (m : Motion) (a : ActIx) : Fresh (v.view a) (m.act a).cfg ((m.restarted v).act a) := by
  obtain ⟨n, hn⟩ : ∃ n : Motion, n = { m with
    lanes := mapVec Lane.emptied m.lanes, poolFree := Config.poolSize, queue := [], marks := Vector.replicate 8 false } :=
    ⟨_, rfl⟩
  have hfold : m.restarted v = allActs.foldl
      (fun m a => m.setAct a ((m.act a).configured (v.view a) (m.act a).cfg)) n := by
    rw [hn]
    rfl
  have hcfg : m.act a = n.act a := by rw [hn]; rfl
  rw [hfold, foldActs_act (fun a x => x.configured (v.view a) x.cfg) allActs allActs_nodup a n, if_pos (mem_allActs a), hcfg]
  exact configured_fresh ..

theorem restarted_frame (v : Env) (m : Motion) :
    (∀ l, (m.restarted v).lane l = (m.lane l).emptied) ∧ (m.restarted v).poolFree = 64 ∧ (m.restarted v).queue = [] ∧
      ∀ k, (m.restarted v).mark k = false := by
  obtain ⟨n, hn⟩ : ∃ n : Motion, n = { m with
    lanes := mapVec Lane.emptied m.lanes, poolFree := Config.poolSize, queue := [], marks := Vector.replicate 8 false } :=
    ⟨_, rfl⟩
  have hfold : m.restarted v = allActs.foldl
      (fun m a => m.setAct a ((m.act a).configured (v.view a) (m.act a).cfg)) n := by
    rw [hn]
    rfl
  obtain ⟨hlanes, hpool, hqueue, hmarks⟩ := foldActs_frame (fun a x => x.configured (v.view a) x.cfg) allActs n
  rw [← hfold] at hlanes hpool hqueue hmarks
  refine ⟨fun l => ?_, ?_, ?_, fun k => ?_⟩
  · simp [Motion.lane, hlanes, hn]
  · rw [hpool, hn]
    rfl
  · rw [hqueue, hn]
  · simp [Motion.mark, hmarks, hn]

theorem env_withMotion (t : State) (m : Motion) : ({ t with motion := m } : State).env = t.env := rfl

theorem restart1_motion (s : State) : s.restart1.motion = s.motion.restarted s.restart1.env := by
  unfold State.restart1
  rw [env_withMotion]

theorem restart1_time (s : State) : s.restart1.time = s.restart1.env.time := by
  unfold State.restart1
  rw [env_withMotion]
  rfl

theorem restart1_afterReset (s : State) : AfterReset s s.restart1 := by
  obtain ⟨v, hm, htime⟩ : ∃ v : Env, s.restart1.motion = s.motion.restarted v ∧ s.restart1.time = v.time :=
    ⟨s.restart1.env, restart1_motion s, restart1_time s⟩
  obtain ⟨hlane, hpool, hqueue, hmark⟩ := restarted_frame v s.motion
  have hact := restarted_fresh v s.motion
  exact {
    lines := fun a => by rw [hm]; exact (hact a).lines
    owners := fun a => by rw [hm]; exact (hact a).owner
    entry := fun a => by rw [hm, htime]; exact (hact a).entry
    actTimers := fun a => by rw [hm]; exact (hact a).timers
    lanes := fun l => by rw [hm, hlane]; exact ⟨rfl, rfl, rfl, rfl, rfl, rfl, rfl⟩
    pool := by rw [hm]; exact hpool
    queue := by rw [hm]; exact hqueue
    marks := fun k => by rw [hm]; exact hmark k
    waiting := rfl
    stack := rfl
    nextId := rfl
    lost := rfl
    attn := rfl
    latches := fun k => by simp [State.restart1]
    inputs := fun i => by simp [State.restart1, Input.resettled, Input.inverted]
    haltIn := rfl
    drvflt := fun k => by simp [State.restart1, FixedLine.default, Config.drvfltFilter]
    mode := rfl
    haltCause := rfl
    noRestart := rfl
    ended := rfl
    rx := rfl
    seqRecord := rfl
    replies := rfl
    idle := ⟨rfl, rfl⟩
    counts := ⟨rfl, rfl, rfl⟩
    watch := rfl
    tickOwed := rfl
    openEnd := rfl
    pending := by simp only [State.restart1] }

theorem restart1_kept (s : State) : KeptByRestart s s.restart1 := by
  obtain ⟨v, hm⟩ : ∃ v : Env, s.restart1.motion = s.motion.restarted v := ⟨_, restart1_motion s⟩
  exact {
    cfg := fun a => by rw [hm]; exact (restarted_fresh v s.motion a).cfg
    lanes := fun l => by rw [hm, (restarted_frame v s.motion).1]; exact ⟨rfl, rfl, rfl⟩
    classes := rfl
    floor := rfl
    inputs := fun i => by simp [State.restart1, Input.resettled]
    time := by simp only [State.restart1]
    watchSetting := rfl
    speed := rfl }

/-- Settles O7: every actuator is configured afresh with the configuration it had. -/
theorem restartOneKeepsTheConfiguration : Obligations.RestartOneKeepsTheConfiguration := by
  intro s h hp hs hl
  have hact : ∀ a, Fresh (s.restart1.env.view a) (s.motion.act a).cfg (s.restart1.motion.act a) := fun a => by
    rw [restart1_motion]
    exact restarted_fresh s.restart1.env s.motion a
  refine ⟨s.restart1, ?_, restart1_afterReset s, restart1_kept s, rfl, fun a ha => (hact a).rests ha,
    fun a ha => (hact a).off ha⟩
  show execRestart1TakesEffect s = _
  unfold execRestart1TakesEffect
  rw [live_operating _ h, hp, restartReplySending_of hs hl]
  rfl

end Sys2Proof.Proofs.Resets
end

section
/-! PROOFS of the family other: good frames and what is made of them, RESTART, LINK_WATCH, and the end of a delay expiry's
event (R44, R75, R85, R144, R170, R172). -/

namespace Sys2Proof.Proofs.OpenEnds

open Sys2Proof.Machine Sys2Proof.Safety Sys2Proof.Proofs.LaneRequests Sys2Proof.Proofs.MessageReference
open Sys2Proof.Proofs.QueueAndPool Sys2Proof.Proofs.Resets

/-! ## RESTART and LINK_WATCH -/

theorem exec_restart (seq : Byte) (payload : List Byte) (s : State) :
    exec (.restart seq payload) s = .next (s.goodFrame seq 0x05 reqRestart payload) := rfl

theorem exec_linkWatch (seq : Byte) (payload : List Byte) (s : State) :
    exec (.linkWatch seq payload) s = .next (s.goodFrame seq 0x07 reqLinkWatch payload) := rfl

theorem reqRestart_level (level : RestartLevel) (s : State) : reqRestart [level.code] s =
    okWith { s with modes := { s.modes with pendingRestart := some level } }.body [level.code] := by
  unfold reqRestart
  simp only [restartLevel_ofCode_code]

theorem reqRestart_out_of_range {b : Byte} (h : 1 < b.toNat) (s : State) : reqRestart [b] s = refuse .badArg s := by
  unfold reqRestart
  simp only [restartLevel_ofCode_none b h]

theorem bytesOf_append (hi lo : Byte) : bytesOf (hi ++ lo : BitVec 16).toNat = [hi, lo] := by
  unfold bytesOf
  rw [BitVec.ofNat_toNat, BitVec.setWidth_eq]
  exact bytes16_word16 hi lo

theorem reqLinkWatch_in_range {hi lo : Byte} {n : Nat} (hn : n = (hi ++ lo : BitVec 16).toNat)
    (h : n = 0 ∨ 50 ≤ n ∧ n ≤ 10000) (s : State) : reqLinkWatch [hi, lo] s =
      okWith { s with link := { s.link with watchSetting := n, watchTimer := Timer.start n } }.body [hi, lo] := by
  have hc : ¬ ((1 ≤ n ∧ n < 50) ∨ 10000 < n) := by omega
  subst hn
  refine (if_neg hc).trans ?_
  rw [word16_eq, bytesOf_append]

theorem reqLinkWatch_out_of_range {hi lo : Byte} {n : Nat} (hn : n = (hi ++ lo : BitVec 16).toNat)
    (h : 1 ≤ n ∧ n ≤ 49 ∨ 10000 < n) (s : State) : reqLinkWatch [hi, lo] s = refuse .badArg s := by
  have hc : (1 ≤ n ∧ n < 50) ∨ 10000 < n := by omega
  subst hn
  exact if_pos hc

/-- Settles O8: the operand is tested, then the mode or the setting is written. -/
theorem restartAndLinkWatchTakeTheirOperand : Obligations.RestartAndLinkWatchTakeTheirOperand := by
  refine ⟨fun s seq b ht => ⟨?_, fun hb => ?_⟩, fun s seq hi lo ht n hn => ⟨fun h u hu => ?_, fun h => ?_⟩⟩
  · rintro level rfl
    exact Yields.of_ok _ _ ht (exec_restart ..) (reqRestart_level ..) rfl rfl rfl
  · exact Refuses.of_refuse .badArg (by decide) ht (exec_restart ..) (reqRestart_out_of_range hb _)
  · subst hu
    exact Yields.of_ok _ _ ht (exec_linkWatch ..) (reqLinkWatch_in_range hn h _) rfl rfl rfl
  · exact Refuses.of_refuse .badArg (by decide) ht (exec_linkWatch ..) (reqLinkWatch_out_of_range hn h _)

/-! ## A good frame and the open end of an event (log 24) -/

/-- The state that an event is taken on, where no hard reset is in progress: `together` with an open end, or after it. -/
def takenOn (together : Bool) (s : State) : State := if together then { s with openEnd := none } else s.shut

theorem takenOn_operating (p : Bool) {s : State} (h : s.modes.inReset = none) : Operating (takenOn p s) := by
  unfold takenOn
  split
  · exact ⟨h, rfl⟩
  · exact shut_operating h

theorem close_link_rx (b : Body) : b.close.link.rx = b.s.link.rx := by
  obtain ⟨_, h⟩ := settle_eq b.s (b.e.arbitrate b.s.env)
  obtain ⟨_, _, _, _, h'⟩ := beginNext_frame (b.s.link.attnSlot == .empty) (b.s.settle (b.e.arbitrate b.s.env))
  have hc : b.close = _ := h'
  rw [hc, h]

theorem takenOn_rx (p : Bool) (s : State) : (takenOn p s).link.rx = s.link.rx := by
  unfold takenOn State.shut
  split
  · rfl
  · split
    · rfl
    · exact close_link_rx _

/-- A good frame is taken on the state that its event leaves of an open end. -/
theorem goodFrame_takenOn {s : State} (h : s.modes.inReset = none) (seq kind : Byte) (req : Request) (p : List Byte) :
    s.goodFrame seq kind req p = (takenOn (s.takesHeadOut kind p) s).goodFrame seq kind req p := by
  unfold State.goodFrame
  rw [liveAs_running _ _ h, liveAs_operating _ _ (takenOn_operating _ h)]
  rfl

/-- The receiver has all of a frame but the last byte of its CRC, which `b` completes (R156). -/
def Completes (s : State) (b : Byte) : Prop :=
  s.link.rx.state = .crc ∧ ∃ hi, s.link.rx.crcHigh = some hi ∧ hi ++ b = s.link.rx.crc

theorem takeByte_completes {s : State} {b : Byte} (h : Completes s b) :
    s.takeByte b = s.goodFrame s.link.rx.seq s.link.rx.kind (requestOf s.link.rx.kind) s.link.rx.payload := by
  obtain ⟨hst, hi, hhi, hcrc⟩ := h
  unfold State.takeByte
  simp only [hst, hhi]
  exact if_pos hcrc

theorem byteTakesHeadOut_completes {s : State} {b : Byte} (h : Completes s b) :
    s.byteTakesHeadOut b = s.takesHeadOut s.link.rx.kind s.link.rx.payload := by
  obtain ⟨hst, hi, hhi, hcrc⟩ := h
  unfold State.byteTakesHeadOut
  simp only [hst, hhi, word16_eq, hcrc, beq_self_eq_true, Bool.true_and]

theorem completes_of_byteTakesHeadOut {s : State} {b : Byte} (h : s.byteTakesHeadOut b = true) : Completes s b := by
  unfold State.byteTakesHeadOut at h
  split at h
  · next hi hst hhi =>
    simp only [Bool.and_eq_true, beq_iff_eq] at h
    exact ⟨hst, hi, hhi, h.1⟩
  · cases h

theorem Completes.congr {s t : State} {b : Byte} (h : Completes s b) (hrx : t.link.rx = s.link.rx) : Completes t b := by
  unfold Completes
  rw [hrx]
  exact h

/-- The byte that completes a frame whose CRC matches is the frame (R156). -/
theorem exec_rxByte_completes {s : State} {b : Byte} (hr : s.modes.inReset = none) (h : Completes s b) :
    exec (.rxByte b false) s =
      .next (s.goodFrame s.link.rx.seq s.link.rx.kind (requestOf s.link.rx.kind) s.link.rx.payload) := by
  have hx : exec (.rxByte b false) s = .next (s.liveAs (s.byteTakesHeadOut b) (State.takeByte b)) := rfl
  have hrx := takenOn_rx (s.takesHeadOut s.link.rx.kind s.link.rx.payload) s
  rw [hx, byteTakesHeadOut_completes h, liveAs_running _ _ hr, goodFrame_takenOn hr]
  refine congrArg _ ((takeByte_completes (h.congr hrx)).trans ?_)
  rw [hrx]

/-- Settles O27: the last byte of a frame does what the request of the frame does. -/
theorem aCompleteFrameIsItsRequest : Obligations.ACompleteFrameIsItsRequest := by
  refine ⟨fun s b hi hr hst hhi hcrc => ?_, fun c seq kind p s h => ?_⟩
  · rw [exec_rxByte_completes hr ⟨hst, hi, hhi, hcrc⟩]
    rfl
  · rw [exec_spoken h]
    rfl

/-! ## Commands and an open end -/

/-- A good frame that does not take the queued head out is taken after the end of the expiry's event. -/
theorem goodFrame_shut {s : State} {kind : Byte} {p : List Byte} (hr : s.modes.inReset = none)
    (h : s.takesHeadOut kind p ≠ true) (seq : Byte) (req : Request) :
    s.goodFrame seq kind req p = s.shut.goodFrame seq kind req p := by
  rw [goodFrame_takenOn hr, Bool.eq_false_iff.mpr h]
  rfl

/-- A good frame that takes the queued head out finds the expiry's event without an end. -/
theorem goodFrame_together {s : State} {kind : Byte} {p : List Byte} (hr : s.modes.inReset = none)
    (h : s.takesHeadOut kind p = true) (seq : Byte) (req : Request) :
    s.goodFrame seq kind req p = ({ s with openEnd := none } : State).goodFrame seq kind req p := by
  rw [goodFrame_takenOn hr, h]
  rfl

theorem answered_live_shut (f : State → State) {s : State} (hr : s.modes.inReset = none) :
    answered (s.live f) = answered (s.shut.live f) := by rw [live_shut f hr]

/-- An event that does not fall together with the expiry finds the expiry's event ended. -/
theorem answered_liveAs_shut (f : State → State) {s : State} (hr : s.modes.inReset = none) {p : Bool} (hp : p = false)
    (q : Bool) : answered (s.liveAs p f) = answered (s.shut.liveAs q f) := by
  rw [hp, liveAs_running _ _ hr, liveAs_operating _ _ (shut_operating hr)]
  rfl

/-- A command on the pins, in a part that operates. -/
theorem pin_shut {same same' : Prop} [Decidable same] [Decidable same'] {s t t' : State} {f : State → State}
    (hr : s.modes.inReset = none) (h : same = same') :
    (if same then answered (s.live id) else if s.modes.inReset.isSome then answered t else answered (s.live f)) =
      if same' then answered (s.shut.live id) else if s.shut.modes.inReset.isSome then answered t'
        else answered (s.shut.live f) := by
  rw [← live_shut id hr, ← live_shut f hr, hr, (shut_operating hr).1]
  simp only [h, Option.isSome_none, Bool.false_eq_true, if_false]

/-- What an open end leaves of the pins. -/
theorem shut_pins (s : State) : s.shut.inputs = s.inputs ∧ s.shut.haltIn = s.haltIn ∧ s.shut.drvflt = s.drvflt := by
  cases h : s.openEnd with
  | none =>
    rw [shut_closed h]
    exact ⟨rfl, rfl, rfl⟩
  | some l =>
    have ha := shut_after h
    exact ⟨ha.inputs, ha.haltIn, ha.drvflt⟩

/-- The open end's request, whole or completed by its last byte. -/
theorem takesHeadOut_spoken {s : State} {l : LaneIx} (hl : s.openEnd = some l) {c : Instr} {seq kind : Byte} {p : List Byte}
    (hc : spoken c = some (seq, kind, p)) (h : s.takesHeadOut kind p = true) : TakesHeadOut s l c :=
  ⟨seq, kind, p, .inl hc, (takesHeadOut_iff hl kind p).mp h⟩

theorem takesHeadOut_byte {s : State} {l : LaneIx} (hl : s.openEnd = some l) {b : Byte} (h : s.byteTakesHeadOut b = true) :
    TakesHeadOut s l (.rxByte b false) := by
  have hcompletes := completes_of_byteTakesHeadOut h
  rw [byteTakesHeadOut_completes hcompletes] at h
  obtain ⟨hst, hi, hhi, hcrc⟩ := hcompletes
  exact ⟨s.link.rx.seq, _, _, .inr ⟨b, hi, rfl, hst, hhi, hcrc, rfl, rfl⟩, (takesHeadOut_iff hl ..).mp h⟩

/-- Every command but the resets' own finds the expiry's event ended, where it does not take the queued head out. -/
theorem exec_shut {c : Instr} {s : State} {l : LaneIx} (hr : s.modes.inReset = none) (hl : s.openEnd = some l)
    (hstart : c ≠ .stepStart) (hpower : c ≠ .powerOn) (hpin : c ≠ .resetAsserted) (hc : ¬ TakesHeadOut s l c) :
    exec c s = exec c s.shut := by
  cases hspoken : spoken c with
  | some frame =>
    rw [exec_spoken hspoken, exec_spoken hspoken, goodFrame_shut hr fun h => hc (takesHeadOut_spoken hl hspoken h)]
  | none =>
    obtain ⟨hinputs, hhalt, hdrvflt⟩ := shut_pins s
    cases c with
    | powerOn => exact absurd rfl hpower
    | resetAsserted => exact absurd rfl hpin
    | stepStart => exact absurd rfl hstart
    | resetEnd straps =>
      show execResetEnd straps s = execResetEnd straps s.shut
      unfold execResetEnd
      rw [hr, (shut_operating hr).1]
      exact answered_live_shut id hr
    | inputRawChange i level => exact pin_shut hr (congrArg (fun v => (v.get i).raw = level) hinputs.symm)
    | haltPinChange level => exact pin_shut hr (congrArg (fun x => x.pin = level) hhalt.symm)
    | drvfltPinChange k level =>
      show execDrvfltPinChange k level s = execDrvfltPinChange k level s.shut
      unfold execDrvfltPinChange
      dsimp only
      rw [hdrvflt]
      exact pin_shut hr rfl
    | rxByte b broken =>
      have hp : (!broken && s.byteTakesHeadOut b) = false := by
        cases broken with
        | true => rfl
        | false => exact Bool.eq_false_iff.mpr fun h => hc (takesHeadOut_byte hl h)
      exact answered_liveAs_shut _ hr hp _
    | tick | atTimeReached | gapTimerExpiry | travelTimerExpiry | settleTimerExpiry | pulseTimerExpiry
    | delayTimerExpiry | startLimitExpiry
    | stabilityTimerExpiry | haltFilterExpiry | drvfltFilterExpiry | interByteGapExpiry | linkWatchExpiry
    | txFrameBegin | txFrameEnd | restart0TakesEffect | restart1TakesEffect =>
      exact answered_live_shut _ hr
    | _ => cases hspoken

/-- A request that takes the queued head out finds the expiry's event without an end. -/
theorem exec_together {c : Instr} {s : State} {l : LaneIx} (hr : s.modes.inReset = none) (hl : s.openEnd = some l)
    (hc : TakesHeadOut s l c) : exec c s = exec c { s with openEnd := none } := by
  obtain ⟨seq, kind, p, hframe, hhead⟩ := hc
  have htakes := (takesHeadOut_iff hl kind p).mpr hhead
  obtain hspoken | ⟨b, hi, rfl, hst, hhi, hcrc, rfl, rfl⟩ := hframe
  · rw [exec_spoken hspoken, exec_spoken hspoken, goodFrame_together hr htakes]
  · rw [exec_rxByte_completes hr ⟨hst, hi, hhi, hcrc⟩, goodFrame_together hr htakes]
    exact (exec_rxByte_completes (s := { s with openEnd := none }) hr ⟨hst, hi, hhi, hcrc⟩).symm

/-! ## The expiries of a delay and of a start limit (R44, R85) -/

theorem delayExpiry_joins {s : State} {l : LaneIx} {h : Machine.Step} {rest : List Machine.Step} (hmode : s.modes.mode = .run)
    (hst : (s.motion.lane l).state = .waiting) (hs : (s.motion.lane l).steps = h :: rest)
    (ht : (s.motion.lane l).delayTimer = some 0) :
    s.delayExpiry l = { s with
      openEnd := some l
      motion := { s.motion.setLane l (queuedLane (s.motion.lane l)) with
        queue := s.motion.queue ++ [{ lane := l, limit := Timer.start h.startLimit }] } } := by
  have hdue : Timer.due (s.motion.lane l).delayTimer = true := by rw [ht]; rfl
  have hwaits : (s.motion.lane l).waits = true := by simp [Lane.waits, hst, hs]
  unfold State.delayExpiry Event.joinQueue queuedLane
  simp only [hdue, hmode, hwaits, hs, m_event, beq_self_eq_true, Bool.and_self, if_true]
  rfl

theorem limitExpiry_faults {s : State} {l : LaneIx} (hq : { lane := l, limit := some 0 } ∈ s.motion.queue) :
    s.limitExpiry l = Body.close { s := s, e := (s.event.leaveQueue l).faultLane l .failed .startLimit none } := by
  have hdue : s.motion.limitDue l = true := List.any_eq_true.mpr ⟨_, hq, by simp [Timer.due]⟩
  unfold State.limitExpiry
  rw [if_pos hdue]

/-- Settles O17: a delay expiry leaves its end open, which the next event or the requests named share. -/
theorem delayAndStartLimitExpiries : Obligations.DelayAndStartLimitExpiries := by
  refine ⟨fun s l h rest hop hmode hst hs ht => ?_, fun s l hr hl => ⟨s.shut, shut_after hl, ?_, fun c => ?_⟩,
    fun s l c hr hl => exec_together hr hl, fun s l h rest hop hq hs => ?_⟩
  · have hx : exec (.delayTimerExpiry l) s = .next (s.live (State.delayExpiry l)) := rfl
    rw [hx, live_operating _ hop, delayExpiry_joins hmode hst hs ht]
  · show answered _ = _
    rw [live_running _ hr, hl]
    rfl
  · exact exec_shut hr hl
  · have hx : exec (.startLimitExpiry l) s = .next (s.live (State.limitExpiry l)) := rfl
    have hf := faultLane_eq (e := s.event.leaveQueue l) (l := l) (h := h) (rest := rest) hs .failed .startLimit none
    rw [live_operating _ hop, limitExpiry_faults hq] at hx
    refine Yields.of_close _ hx ?_ ?_ ?_ <;> rw [hf] <;> rfl

end Sys2Proof.Proofs.OpenEnds
end

section
/-! PROOFS of the family other: the tick and what falls on it, timers and reached times (R44, R68, R126 to R131). -/

namespace Sys2Proof.Proofs.TicksAndTimers

open Sys2Proof.Machine Sys2Proof.Safety Sys2Proof.Proofs.LaneRequests Sys2Proof.Proofs.EventRows
open Sys2Proof.Proofs.QueueAndPool Sys2Proof.Proofs.LaneResults

/-! ## Timers (R128) -/

theorem tick_iterate (n k : Nat) : Timer.tick^[k] (some n) = some (n - k) := by
  induction k with
  | zero => rfl
  | succ k ih =>
    rw [Function.iterate_succ_apply', ih]
    exact congrArg some (Nat.sub_sub n k 1)

theorem start_pos {n : Nat} (h : 1 ≤ n) : Timer.start n = some n := if_neg (by omega)

theorem due_iff (t : Timer) : Timer.due t = true ↔ Due t := by simp [Timer.due, Due]

theorem pulseDue_eq_false {x : Actuator} (h : ∀ p, x.pulse = some p → p.left ≠ 0) : x.pulseDue = false := by
  unfold Actuator.pulseDue
  cases hp : x.pulse with
  | none => rfl
  | some p => simpa using h p hp

theorem limitDue_eq_false {m : Motion} {l : LaneIx} (h : ∀ q ∈ m.queue, q.lane = l → ¬ Due q.limit) : m.limitDue l = false :=
  List.any_eq_false.mpr fun q hq hdue => by
    simp only [Bool.and_eq_true, beq_iff_eq] at hdue
    exact h q hq hdue.1 ((due_iff _).mp hdue.2)

/-! ## Expiries that are not due (log 2) -/

section

variable {s : State}

theorem gapExpiry_not_due {a : ActIx} (h : ¬ Due (s.motion.act a).gapTimer) : s.gapExpiry a = s :=
  if_neg (mt (due_iff _).mp h)

theorem travelExpiry_not_due {a : ActIx} (h : ¬ Due (s.motion.act a).travelTimer) : s.travelExpiry a = s :=
  if_neg (mt (due_iff _).mp h)

theorem settleExpiry_not_due {a : ActIx} (h : ¬ Due (s.motion.act a).settleTimer) : s.settleExpiry a = s :=
  if_neg (mt (due_iff _).mp h)

theorem pulseExpiry_not_due {a : ActIx} (h : ∀ p, (s.motion.act a).pulse = some p → p.left ≠ 0) : s.pulseExpiry a = s :=
  if_neg (Bool.eq_false_iff.mp (pulseDue_eq_false h))

theorem delayExpiry_not_due {l : LaneIx} (h : ¬ Due (s.motion.lane l).delayTimer) : s.delayExpiry l = s :=
  if_neg (mt (due_iff _).mp h)

theorem limitExpiry_not_due {l : LaneIx} (h : ∀ q ∈ s.motion.queue, q.lane = l → ¬ Due q.limit) : s.limitExpiry l = s :=
  if_neg (Bool.eq_false_iff.mp (limitDue_eq_false h))

theorem stabilityExpiry_not_due {i : InputIx} (h : ¬ Due (s.inputs.get i).timer) : s.stabilityExpiry i = s :=
  if_neg (mt (due_iff _).mp h)

theorem haltExpiry_not_due (h : ¬ Due s.haltIn.timer) : s.haltExpiry = s := if_neg (mt (due_iff _).mp h)

theorem drvfltExpiry_not_due {k : BankIx} (h : ¬ Due (s.drvflt.get k).timer) : s.drvfltExpiry k = s :=
  if_neg (mt (due_iff _).mp h)

theorem gapExpired_not_due (h : ¬ Due s.link.rx.gapTimer) : s.gapExpired = s := if_neg (mt (due_iff _).mp h)

theorem watchExpired_not_due (h : ¬ Due s.link.watchTimer) : s.watchExpired = s := if_neg (mt (due_iff _).mp h)

/-- An event that does nothing, with no end open. -/
theorem live_idle {f : State → State} (ho : s.openEnd = none) (hf : f s = s) : s.live f = s := by
  cases hr : s.modes.inReset with
  | none => rw [live_operating f ⟨hr, ho⟩, hf]
  | some r => exact Resets.live_in_reset f (by rw [hr]; exact nofun)

theorem exec_idle {c : Instr} {f : State → State} (hx : exec c s = .next (s.live f)) (ho : s.openEnd = none) (hf : f s = s) :
    exec c s = .next s := by rw [hx, live_idle ho hf]

end

/-! ## Reached times (R130) -/

theorem timeReached_iff (now t : Time) : timeReached now t = true ↔ (now - t).toNat < 2 ^ 31 := decide_eq_true_iff

theorem elapsed {k : Nat} (h : k < 2 ^ 32) (t : Time) : (t + BitVec.ofNat 32 k - t).toNat = k := by
  rw [BitVec.add_comm, BitVec.add_sub_cancel, BitVec.toNat_ofNat, Nat.mod_eq_of_lt h]

/-- Settles O10: an expiry that is not due does nothing, and a time reached is a comparison modulo 2^32. -/
theorem timersExpireAndTimesAreReached : Obligations.TimersExpireAndTimesAreReached := by
  refine ⟨⟨fun n hn k hk => ?_, rfl, fun s ho => ?_⟩, timeReached_iff, fun t k hk => ?_⟩
  · rw [start_pos hn, tick_iterate, due_iff, Due, Option.some_inj]
    omega
  · exact ⟨fun a h => exec_idle rfl ho (gapExpiry_not_due h), fun a h => exec_idle rfl ho (travelExpiry_not_due h),
      fun a h => exec_idle rfl ho (settleExpiry_not_due h), fun a h => exec_idle rfl ho (pulseExpiry_not_due h),
      fun l h => exec_idle rfl ho (delayExpiry_not_due h), fun l h => exec_idle rfl ho (limitExpiry_not_due h),
      fun i h => exec_idle rfl ho (stabilityExpiry_not_due h), fun h => exec_idle rfl ho (haltExpiry_not_due h),
      fun k h => exec_idle rfl ho (drvfltExpiry_not_due h), fun h => exec_idle rfl ho (gapExpired_not_due h),
      fun h => exec_idle rfl ho (watchExpired_not_due h)⟩
  · rw [timeReached_iff, elapsed hk]

/-! ## The time test of one step (R131) -/

theorem testReached_of_reached {h : Machine.Step} (hr : h.reached = true) (now : Time) : h.testReached now = h := by
  unfold Step.testReached
  split
  · split
    · cases h
      cases hr
      rfl
    · rfl
  all_goals rfl

theorem testReached_atTime {h : Machine.Step} {now t : Time} (hc : h.cond = .atTime t) (ht : (now - t).toNat < 2 ^ 31) :
    h.testReached now = { h with reached := true } := by
  unfold Step.testReached
  rw [hc]
  exact if_pos ((timeReached_iff now t).mpr ht)

theorem testPlace_eq {ln : Lane} {place : Nat} {h : Machine.Step} (hs : ln.steps[place]? = some h) (now : Time) :
    ln.testPlace now place = { ln with steps := ln.steps.set place (h.testReached now) } := by
  unfold Lane.testPlace
  rw [List.modify_eq_set_getElem?, hs]
  rfl

/-- The step at a place with its indicator set. -/
def withReached (place : Nat) (h : Machine.Step) (ln : Lane) : Lane :=
  { ln with steps := ln.steps.set place { h with reached := true } }

theorem withReached_ne {ln : Lane} {place : Nat} {h : Machine.Step} (hs : ln.steps[place]? = some h) (hr : h.reached = false) :
    withReached place h ln ≠ ln := fun he => by
  obtain ⟨hlt, _⟩ := List.getElem?_eq_some_iff.mp hs
  have hsteps : (ln.steps.set place { h with reached := true })[place]? = ln.steps[place]? :=
    congrArg (fun x => x.steps[place]?) he
  rw [List.getElem?_set_self hlt, hs, Option.some_inj] at hsteps
  have := congrArg Machine.Step.reached hsteps
  rw [hr] at this
  cases this

/-! ## AT_TIME_REACHED (R131) -/

theorem exec_atTimeReached (l : LaneIx) (place : Nat) {s : State} (hop : Operating s) :
    exec (.atTimeReached l place) s = answered
      (if s.motion.setLane l ((s.motion.lane l).testPlace s.time place) = s.motion then
        if s.tickOwed && s.modes.mode == .run && place == 0 && (s.motion.lane l).timeUp then s.ownTick else s
      else Body.close
        { s := { s with motion := s.motion.setLane l ((s.motion.lane l).testPlace s.time place) }
          e := Event.joinReached s.env l
            { m := s.motion.setLane l ((s.motion.lane l).testPlace s.time place), raised := [], started := [] } }) :=
  congrArg answered (live_operating _ hop)

/-- The indicator of a step is set by its test, and its lane joins the start queue where its wait is over. -/
theorem atTimeReached_sets {s : State} {l : LaneIx} {place : Nat} {h : Machine.Step} {t : Time} (hop : Operating s)
    (hs : (s.motion.lane l).steps[place]? = some h) (hc : h.cond = .atTime t) (hr : h.reached = false)
    (ht : (s.time - t).toNat < 2 ^ 31) :
    Yields (.atTimeReached l place) s
      { s with motion := (Event.joinReached s.env l
        { m := s.motion.setLane l (withReached place h (s.motion.lane l)), raised := [], started := [] }).m } [] := by
  have hlane : (s.motion.lane l).testPlace s.time place = withReached place h (s.motion.lane l) := by
    rw [testPlace_eq hs, testReached_atTime hc ht]
    rfl
  have hne : s.motion.setLane l (withReached place h (s.motion.lane l)) ≠ s.motion := fun he =>
    withReached_ne hs hr (by rw [← lane_setLane_self s.motion l (withReached place h (s.motion.lane l)), he])
  have hx := exec_atTimeReached l place hop
  rw [hlane, if_neg hne] at hx
  refine Yields.of_close _ hx ?_ rfl ?_ <;> rw [joinReached_eq]

theorem not_waitOver_withReached {s : State} {l : LaneIx} (place : Nat) (h : Machine.Step)
    (hn : s.modes.mode ≠ .run ∨ (s.motion.lane l).state ≠ .waiting) :
    (s.env.mode == .run && waitOver (withReached place h (s.motion.lane l))) = false := by
  have hmode : s.env.mode = s.modes.mode := rfl
  have hstate : (withReached place h (s.motion.lane l)).state = (s.motion.lane l).state := rfl
  obtain hn | hn := hn
  · simp [hmode, hn]
  · simp [waitOver, hstate, hn]

theorem waitOver_withReached {ln : Lane} {h : Machine.Step} {rest : List Machine.Step} {t : Time} (hst : ln.state = .waiting)
    (hs : ln.steps = h :: rest) (hc : h.cond = .atTime t) : waitOver (withReached 0 h ln) = true := by
  simp [waitOver, withReached, hst, hs, hc]

/-- Settles O11: the indicator is written once, and a head whose wait it ends joins the queue. -/
theorem atTimeReachedSetsTheIndicator : Obligations.AtTimeReachedSetsTheIndicator := by
  refine ⟨fun s l place h t hop hs hc hr ht => ?_, fun s l h rest t hop ho hmode hst hs hc hr => ?_⟩
  · refine ⟨_, atTimeReached_sets hop hs hc hr ht, rfl, ?_, ?_, ?_, fun j hj => ?_, fun hn => ?_, fun hmode hst hp => ?_⟩
    all_goals dsimp only
    all_goals rw [joinReached_eq]
    · rfl
    · rfl
    · rfl
    · exact (lane_setLane_ne _ _ _ _ hj).trans (lane_setLane_ne _ _ _ _ hj)
    · rw [lane_setLane_self, not_waitOver_withReached place h hn]
      exact ⟨lane_setLane_self .., List.append_nil _⟩
    · subst hp
      obtain ⟨rest, hrest⟩ : ∃ rest, (s.motion.lane l).steps = h :: rest := by
        cases hls : (s.motion.lane l).steps with
        | nil => simp [hls] at hs
        | cons g rest =>
          rw [hls] at hs
          exact ⟨rest, by rw [Option.some_inj.mp hs]⟩
      have hover : (s.env.mode == .run && waitOver (withReached 0 h (s.motion.lane l))) = true := by
        rw [waitOver_withReached hst hrest hc]
        simpa [State.env] using hmode
      rw [lane_setLane_self, if_pos hover, if_pos hover]
      refine ⟨(lane_setLane_self ..).trans ?_, ?_⟩
      · simp [queuedLane, withReached, hrest]
      · simp [headEntry, withReached, hrest]
  · have hover : (s.motion.lane l).timeUp = true := by
      rw [timeUp_eq]
      simp [waitOver, hst, hs, hc, hr]
    have hsame : (s.motion.lane l).testPlace s.time 0 = s.motion.lane l := by
      rw [testPlace_eq (place := 0) (h := h) (by rw [hs]; rfl), testReached_of_reached hr, hs]
      exact congrArg (fun x => { s.motion.lane l with steps := x }) hs.symm
    obtain ⟨u, htaken, hafter⟩ := ownTick_spec s
    have hx := exec_atTimeReached l 0 hop
    rw [hsame, if_pos (setLane_lane ..), ho, hmode, hover] at hx
    exact ⟨u, ⟨_, hx, hafter⟩, htaken⟩

/-! ## TICK (R126 to R128) -/

theorem close_time (b : Body) : b.close.time = b.s.time := by
  obtain ⟨_, h⟩ := settle_eq b.s (b.e.arbitrate b.s.env)
  obtain ⟨_, _, _, _, h'⟩ := beginNext_frame (b.s.link.attnSlot == .empty) (b.s.settle (b.e.arbitrate b.s.env))
  have hc : b.close = _ := h'
  rw [hc, h]

/-- What a tick finds outstanding moves no time. -/
def KeepsTime (f : State → State) : Prop := ∀ s, (f s).time = s.time

theorem KeepsTime.closeIf {p : State → Bool} {b : State → Body} (h : ∀ s, (b s).s.time = s.time) :
    KeepsTime fun s => if p s then (b s).close else s := fun s => by
  dsimp only
  split
  · rw [close_time, h]
  · rfl

theorem KeepsTime.foldl {α : Type} {f : State → α → State} (h : ∀ x, KeepsTime fun s => f s x) (xs : List α) :
    KeepsTime fun s => xs.foldl f s := by
  induction xs with
  | nil => exact fun _ => rfl
  | cons x xs ih => exact fun s => (ih _).trans (h x s)

theorem KeepsTime.comp {f g : State → State} (hg : KeepsTime g) (hf : KeepsTime f) : KeepsTime fun s => g (f s) := fun s =>
  (hg _).trans (hf s)

theorem actExpiries_time (a : ActIx) : KeepsTime fun s => s.actExpiries a :=
  have pulse : KeepsTime (State.pulseExpiry a) := .closeIf fun _ => rfl
  have settle : KeepsTime (State.settleExpiry a) := .closeIf fun _ => rfl
  have travel : KeepsTime (State.travelExpiry a) := .closeIf fun _ => rfl
  have gap : KeepsTime (State.gapExpiry a) := .closeIf fun _ => rfl
  pulse.comp (settle.comp (travel.comp gap))

theorem shut_time : KeepsTime State.shut := fun s => by
  unfold State.shut
  split
  · rfl
  · exact close_time _

theorem delayExpiry_time (l : LaneIx) : KeepsTime (State.delayExpiry l) := fun s => by
  unfold State.delayExpiry
  split
  · split
    · rfl
    · exact close_time _
  · rfl

theorem laneExpiries_time (l : LaneIx) : KeepsTime fun s => s.laneExpiries l :=
  have limit : KeepsTime (State.limitExpiry l) := .closeIf fun _ => rfl
  limit.comp (shut_time.comp (delayExpiry_time l))

theorem stabilityExpiry_time (i : InputIx) : KeepsTime (State.stabilityExpiry i) :=
  .closeIf fun s => by
    split <;> rfl

theorem haltPart_time (cause : HaltCause) (cls : NoticeClass) (s : State) : (s.haltPart cause cls).s.time = s.time := by
  unfold State.haltPart
  split <;> rfl

theorem haltExpiry_time : KeepsTime State.haltExpiry :=
  .closeIf fun s => by
    unfold State.haltLevel
    dsimp only
    split
    · exact haltPart_time ..
    · rfl

theorem drvfltExpiry_time (k : BankIx) : KeepsTime (State.drvfltExpiry k) :=
  .closeIf fun s => by
    unfold State.drvfltLevel State.driverFault
    dsimp only
    split
    · split <;> rfl
    · rfl

theorem gapExpired_time : KeepsTime State.gapExpired := .closeIf fun _ => rfl

theorem watchExpired_time : KeepsTime State.watchExpired := .closeIf fun _ => haltPart_time ..

theorem ownTick_time : KeepsTime State.ownTick := fun _ => close_time _

theorem takeDue_time : KeepsTime State.takeDue := by
  have own : KeepsTime fun s => if s.tickOwed then s.ownTick else s := .closeIf fun _ => rfl
  exact watchExpired_time.comp (gapExpired_time.comp ((KeepsTime.foldl drvfltExpiry_time allBanks).comp
    (haltExpiry_time.comp ((KeepsTime.foldl stabilityExpiry_time allInputs).comp
      ((KeepsTime.foldl laneExpiries_time allLanes).comp ((KeepsTime.foldl actExpiries_time allActs).comp own))))))

theorem tickEvent_time (s : State) : s.tickEvent.time = s.time + 1 := by
  unfold State.tickEvent
  dsimp only
  split
  · rfl
  · exact ownTick_time _

theorem exec_tick {s : State} (hop : Operating s) : exec .tick s = .next s.takeDue.tickEvent :=
  congrArg answered (live_operating _ hop)

/-- The tick that a part with nothing outstanding counts: its own event follows, or is left outstanding in RUN beside the
expiries that fall on it (R68, R70, log 22). -/
theorem tickEvent_counts (s : State) : ∃ u, TickCounted s u ∧
    (s.modes.mode = .run → ¬ NothingDue u → s.tickEvent = { u with tickOwed := true }) ∧
    (s.modes.mode ≠ .run ∨ NothingDue u → ∃ w, After w [] s.tickEvent ∧ TickTaken u w) := by
  have hmode : s.count.modes.mode = s.modes.mode := rfl
  refine ⟨s.count, count_spec s, fun hrun hdue => ?_, fun h => ?_⟩
  · have hany : s.count.anyDue = true := by
      rw [← Bool.not_eq_false]
      exact fun hn => hdue ((anyDue_iff _).mp hn)
    refine if_pos ?_
    rw [hmode, hrun, hany]
    rfl
  · have hnot : (s.count.modes.mode == .run && s.count.anyDue) = false := by
      obtain hrun | hdue := h
      · simp [hmode, hrun]
      · rw [(anyDue_iff _).mpr hdue, Bool.and_false]
    have htick : s.tickEvent = s.count.ownTick := if_neg (Bool.eq_false_iff.mp hnot)
    obtain ⟨w, htaken, hafter⟩ := ownTick_spec s.count
    exact ⟨w, htick ▸ hafter, htaken⟩

/-- What is outstanding is nothing. -/
theorem takeDue_nothing {s : State} (hop : Operating s) (h : NothingDue s) (ho : s.tickOwed = false) : s.takeDue = s := by
  obtain ⟨hacts, hlanes, hqueue, hinputs, hhalt, hdrvflt, hgap, hwatch⟩ := h
  have act : ∀ a, s.actExpiries a = s := fun a => by
    obtain ⟨hg, ht, hs, hp⟩ := hacts a
    unfold State.actExpiries
    rw [gapExpiry_not_due hg, travelExpiry_not_due ht, settleExpiry_not_due hs, pulseExpiry_not_due hp]
  have lane : ∀ l, s.laneExpiries l = s := fun l => by
    unfold State.laneExpiries
    rw [delayExpiry_not_due (hlanes l), shut_closed hop.2, limitExpiry_not_due fun q hq _ => hqueue q hq]
  unfold State.takeDue
  rw [ho, if_neg Bool.false_ne_true]
  dsimp only
  rw [List.foldl_fixed' act, List.foldl_fixed' lane,
    List.foldl_fixed' (f := fun (s : State) (i : InputIx) => s.stabilityExpiry i) fun i => stabilityExpiry_not_due (hinputs i),
    haltExpiry_not_due hhalt,
    List.foldl_fixed' (f := fun (s : State) (k : BankIx) => s.drvfltExpiry k)
      fun k => drvfltExpiry_not_due (hdrvflt k),
    gapExpired_not_due hgap, watchExpired_not_due hwatch]

/-- The tick's own event, left outstanding, is taken first. -/
theorem takeDue_owed {s : State} (ho : s.tickOwed = true) : s.takeDue = s.ownTick.takeDue := by
  obtain ⟨u, htaken, hafter⟩ := ownTick_spec s
  have hnone : s.ownTick.tickOwed = false := hafter.tickOwed.trans (congrArg State.tickOwed htaken.frame)
  unfold State.takeDue
  rw [ho, hnone]
  rfl

/-- A tick counted where `t` is what the events outstanding have left of the part. -/
theorem tick_counts {s t : State} (hop : Operating s) (hmode : s.takeDue = t) : ∃ u, TickCounted t u ∧
    (t.modes.mode = .run → ¬ NothingDue u → exec .tick s = .next { u with tickOwed := true }) ∧
    (t.modes.mode ≠ .run ∨ NothingDue u → ∃ w, Yields .tick s w [] ∧ TickTaken u w) := by
  obtain ⟨u, hcounted, howed, hown⟩ := tickEvent_counts t
  have hx := exec_tick hop
  rw [hmode] at hx
  refine ⟨u, hcounted, fun hrun hdue => hx.trans (congrArg _ (howed hrun hdue)), fun h => ?_⟩
  obtain ⟨w, hafter, htaken⟩ := hown h
  exact ⟨w, ⟨_, hx, hafter⟩, htaken⟩

/-- Settles O9: what is outstanding is taken, then time and timers are counted. -/
theorem aTickCountsTimeAndTimers : Obligations.ATickCountsTimeAndTimers := by
  refine ⟨fun s hop => ⟨_, exec_tick hop, ?_⟩, fun s hop hdue ho => tick_counts hop (takeDue_nothing hop hdue ho),
    fun s hop ho => ?_, fun s t hop ho ht => tick_counts hop ((takeDue_eq s hop ho).trans ht.symm)⟩
  · rw [tickEvent_time, takeDue_time]
  · obtain ⟨w, htaken, hafter⟩ := ownTick_spec s
    have hown : Operating s.ownTick := close_operating _ hop
    exact ⟨w, _, htaken, hafter, by rw [exec_tick hop, exec_tick hown, takeDue_owed ho]⟩

end Sys2Proof.Proofs.TicksAndTimers
end

section
/-! PROOFS of the family other: the receiver and its CRC (R154 to R159). -/

namespace Sys2Proof.Proofs.ReceiverBytes

open Sys2Proof.Machine Sys2Proof.Safety

variable {s : State} {b : Byte}

theorem exec_rxByte (hop : Operating s) (b : Byte) : exec (.rxByte b false) s = .next (s.takeByte b) :=
  congrArg answered (liveAs_operating _ _ hop)

theorem exec_rxByte_broken (hop : Operating s) (b : Byte) : exec (.rxByte b true) s = .next s.takeBroken :=
  congrArg answered (liveAs_operating _ _ hop)

/-! ## A byte short of the end of a frame -/

/-- The receiver does not hold the first byte of a CRC. -/
def Short (r : Machine.Receiver) : Prop := r.state = .crc → r.crcHigh = none

theorem takeByte_short (h : Short s.link.rx) : s.takeByte b =
    match s.link.rx.take b with
    | none => s.discardFrame.body.close
    | some r => (s.setRx r).body.close := by
  unfold State.takeByte
  dsimp only
  split
  · next hi hst hhi =>
    rw [h hst] at hhi
    cases hhi
  · rfl

/-- A byte that moves the receiver. -/
theorem byte_moves (hop : Operating s) (h : Short s.link.rx) {r : Machine.Receiver} (hr : s.link.rx.take b = some r) :
    Yields (.rxByte b false) s (withRx s r) [] := by
  refine Yields.of_body _ ((exec_rxByte hop b).trans ?_)
  rw [takeByte_short h, hr]
  rfl

/-- A byte that discards the frame. -/
theorem byte_discards (hop : Operating s) (h : Short s.link.rx) (hr : s.link.rx.take b = none) :
    Yields (.rxByte b false) s (discarded s) [] := by
  refine Yields.of_body _ ((exec_rxByte hop b).trans ?_)
  rw [takeByte_short h, hr]
  rfl

theorem short_of_state {r : Machine.Receiver} {st : RxState} (h : r.state = st) (hst : st ≠ .crc) : Short r := fun hc =>
  absurd (h.symm.trans hc) hst

theorem take_hunt {r : Machine.Receiver} (h : r.state = .hunt) : r.take b =
    if b = Config.lead then some { Receiver.hunt with state := .len, gapTimer := some Config.byteGap } else some r := by
  unfold Receiver.take
  rw [h]

theorem take_len {r : Machine.Receiver} (h : r.state = .len) : r.take b =
    if b.toNat ≤ Config.maxPayload then some { r.entered b with state := .seq, len := b } else none := by
  unfold Receiver.take
  rw [h]

theorem take_seq {r : Machine.Receiver} (h : r.state = .seq) :
    r.take b = some { r.entered b with state := .kind, seq := b } := by
  unfold Receiver.take
  rw [h]

theorem take_kind {r : Machine.Receiver} (h : r.state = .kind) :
    r.take b = some { r.entered b with state := if r.len = 0 then .crc else .payload, kind := b } := by
  unfold Receiver.take
  rw [h]

theorem take_payload {r : Machine.Receiver} (h : r.state = .payload) : r.take b = some { r.entered b with
    state := if r.len.toNat ≤ r.payload.length + 1 then .crc else .payload, payload := r.payload ++ [b] } := by
  unfold Receiver.take
  rw [h]
  simp only [List.length_append, List.length_cons, List.length_nil, Nat.zero_add]

theorem take_crc {r : Machine.Receiver} (h : r.state = .crc) :
    r.take b = some { r with crcHigh := some b, gapTimer := some Config.byteGap } := by
  unfold Receiver.take
  rw [h]

/-! ## The end of a frame whose CRC does not match -/

theorem takeByte_mismatch {hi : Byte} (hst : s.link.rx.state = .crc) (hhi : s.link.rx.crcHigh = some hi)
    (hcrc : hi ++ b ≠ s.link.rx.crc) : s.takeByte b = s.badFrame.body.close := by
  unfold State.takeByte
  simp only [hst, hhi]
  exact if_neg hcrc

theorem badFrame_counted (h : s.modes.pendingRestart = none) : s.badFrame = discarded s := by
  unfold State.badFrame
  rw [h]
  rfl

theorem badFrame_uncounted (h : s.modes.pendingRestart ≠ none) : s.badFrame = withRx s .hunt :=
  if_pos (Option.isSome_iff_ne_none.mpr h)

/-! ## The CRC (R154) -/

theorem crcShift_eq (c : BitVec 16) : crcShift c = if c.getLsbD 15 then (c <<< 1) ^^^ 0x1021#16 else c <<< 1 := by
  unfold crcShift
  rw [BitVec.msb_eq_getLsbD_last]

theorem crcByte_eq (c : BitVec 16) (b : Byte) : crcByte c b =
    (fun r : BitVec 16 => if r.getLsbD 15 then (r <<< 1) ^^^ 0x1021#16 else r <<< 1)^[8] (c ^^^ (b ++ 0#8)) := by
  rw [show (fun r : BitVec 16 => if r.getLsbD 15 then (r <<< 1) ^^^ 0x1021#16 else r <<< 1) = crcShift from
    funext fun c => (crcShift_eq c).symm]
  rfl

/-- Settles O26: the cases of the receiver, and the CRC bit by bit. -/
theorem theReceiverAndItsCrc : Obligations.TheReceiverAndItsCrc := by
  refine ⟨fun s b hop => ⟨fun h hb => ?_, fun h hb => ?_, fun h hb => ?_, fun h hb => ?_, fun h => ?_, fun h => ?_,
    fun h => ?_, fun h hhi => ?_, fun hi h hhi hcrc => ⟨fun hp => ?_, fun hp => ?_⟩, fun h => ?_, fun h => ?_,
    fun h => ?_⟩, crcByte_eq, by decide +kernel⟩
  · exact byte_moves hop (short_of_state h nofun) ((take_hunt h).trans (if_pos hb))
  · exact byte_moves hop (short_of_state h nofun) ((take_hunt h).trans (if_neg hb))
  · exact byte_moves hop (short_of_state h nofun) ((take_len h).trans (if_pos hb))
  · exact byte_discards hop (short_of_state h nofun) ((take_len h).trans (if_neg (Nat.not_le.mpr hb)))
  · exact byte_moves hop (short_of_state h nofun) (take_seq h)
  · exact byte_moves hop (short_of_state h nofun) (take_kind h)
  · exact byte_moves hop (short_of_state h nofun) (take_payload h)
  · exact byte_moves hop (fun _ => hhi) (take_crc h)
  · refine Yields.of_body _ ((exec_rxByte hop b).trans ?_)
    rw [takeByte_mismatch h hhi hcrc, badFrame_counted hp]
  · refine Yields.of_body _ ((exec_rxByte hop b).trans ?_)
    rw [takeByte_mismatch h hhi hcrc, badFrame_uncounted hp]
  · exact Yields.of_body _ ((exec_rxByte_broken hop b).trans (congrArg _ (if_pos (by rw [h]; rfl))))
  · exact Yields.of_body _ ((exec_rxByte_broken hop b).trans (congrArg _ (if_neg (by simpa using h))))
  · have hx : exec .interByteGapExpiry s = .next (s.live State.gapExpired) := rfl
    rw [live_operating _ hop] at hx
    exact Yields.of_body _ (hx.trans (congrArg _ (if_pos (by rw [h]; rfl))))

end Sys2Proof.Proofs.ReceiverBytes
end

section
/-! PROOFS of the family other: the pins, the filters and the changes of a filtered level (R15, R16, R21 to R23, R115, R121 to
R124). -/

namespace Sys2Proof.Proofs.SensorChanges

open Sys2Proof.Machine Sys2Proof.Safety Sys2Proof.Proofs.LaneRequests Sys2Proof.Proofs.LaneResults
open Sys2Proof.Proofs.QueueAndPool

/-! ## WATCH is raised by the input stage alone (R122) -/

/-- The WATCH notices of a list. -/
def watchOf (ns : List Raised) : List Raised := ns.filter fun n => n.cls == .watch

theorem watchOf_append (ns ms : List Raised) : watchOf (ns ++ ms) = watchOf ns ++ watchOf ms := List.filter_append ..

theorem watchOf_eq_nil {ns : List Raised} (h : ∀ n ∈ ns, n.cls ≠ .watch) : watchOf ns = [] :=
  List.filter_eq_nil_iff.mpr fun n hn => by simpa using h n hn

theorem watchOf_raise {n : Raised} (h : n.cls ≠ .watch) (e : Event) : watchOf (e.raise n).raised = watchOf e.raised := by
  rw [raised_raise, watchOf_append, watchOf_eq_nil (ns := [n]) (by simpa using h), List.append_nil]

theorem record_raised (l : LaneIx) (a : ActIx) (r : MoveResult) (e : Event) : (e.record l a r).raised = e.raised := by
  unfold Event.record
  split <;> rfl

theorem takeReport_watch (a : ActIx) (r : Report) (e : Event) : watchOf (e.takeReport a r).raised = watchOf e.raised := by
  cases r with
  | quiet => rfl
  | done o =>
    cases o with
    | none | safe => rfl
    | jog => exact watchOf_raise (by exact nofun) e
    | lane l => exact congrArg watchOf (record_raised ..)
  | failed o c =>
    cases o with
    | none | jog | safe => exact watchOf_raise (by exact nofun) e
    | lane l => exact (congrArg watchOf (record_raised ..)).trans (watchOf_raise (by exact nofun) e)

theorem completionNotices_watch (mode : Mode) (l : LaneIx) (h : Machine.Step) (rest : List Machine.Step) (ln : Lane) :
    watchOf (completionNotices mode l h rest ln) = [] :=
  watchOf_eq_nil fun n hn => by
    unfold completionNotices at hn
    simp only [List.mem_append, List.mem_ite_nil_right, List.mem_singleton] at hn
    obtain (⟨_, rfl⟩ | ⟨_, rfl⟩) | ⟨_, rfl⟩ := hn <;> exact nofun

theorem actOnResults_watch (v : Env) (l : LaneIx) (e : Event) : watchOf (e.actOnResults v l).raised = watchOf e.raised := by
  obtain heq | ⟨h, rest, _, _, ⟨_, hfailed⟩ | ⟨_, hdone⟩⟩ := actOnResults_cases v l e
  · rw [heq]
  · rw [hfailed.raised, watchOf_append]
    split
    · exact List.append_nil _
    · exact List.append_nil _
  · rw [hdone.raised, watchOf_append, completionNotices_watch, List.append_nil]

theorem act_watch (v : Env) (a : ActIx) (f : View → Actuator → ActOut) (e : Event) :
    watchOf (e.act v a f).raised = watchOf e.raised := by
  have htaken := takeReport_watch a (f (v.view a) (e.m.act a)).report (e.setAct a (f (v.view a) (e.m.act a)).act)
  unfold Event.act
  dsimp only
  split
  · exact htaken
  · exact (actOnResults_watch ..).trans htaken

/-! ## The sensor of an actuator (R6) -/

/-- An input is the sensor at its end of its actuator (R6). -/
theorem active_inputEnd (v : Env) (i : InputIx) : (v.view (inputAct i)).active (inputEnd i) = v.level i := by
  unfold inputEnd
  by_cases he : i.val % 2 = 0
  · rw [if_pos he]
    exact congrArg v.level (Fin.ext (by simp only [xInput, inputAct]; omega))
  · rw [if_neg he]
    exact congrArg v.level (Fin.ext (by simp only [rInput, inputAct]; omega))

/-! ## What an actuator makes of a change (R15, R16, R21 to R23) -/

section

variable {v : View} {x : Actuator} {e : End}

theorem sensorChanged_free (h : x.cfg.sensing.has e = false) : x.sensorChanged v e = x.silent := by
  unfold Actuator.sensorChanged
  rw [h]
  rfl

theorem sensorChanged_still (h : x.state = .off ∨ x.state = .faulted) : x.sensorChanged v e = x.silent := by
  unfold Actuator.sensorChanged
  obtain h | h := h <;> rw [h] <;> exact ite_self _

theorem sensorChanged_used (h : x.cfg.sensing.has e = true) : x.sensorChanged v e =
    match x.state with
    | .off => x.silent
    | .faulted => x.silent
    | .gap => if x.inConflict v then x.faultWith v .conflict else x.silent
    | .travel =>
      if x.inConflict v then x.faultWith v .conflict
      else if x.target == some e && v.active e then x.enterSettle v e
      else x.silent
    | .settle =>
      if x.inConflict v then x.faultWith v .conflict
      else if x.target == some e && !v.active e then x.settleDrop v
      else x.silent
    | .rest =>
      if v.mode == .run && x.supervised then x.restSupervised v e else (x.fromSensors v).silent := by
  unfold Actuator.sensorChanged
  rw [h]
  rfl

theorem sensorChanged_conflict (h : x.cfg.sensing.has e = true) (hm : x.moving = true) (hc : conflicting v x) :
    x.sensorChanged v e = x.faultWith v .conflict := by
  have hc := (inConflict_iff v x).mpr hc
  rw [sensorChanged_used h]
  cases hst : x.state <;> simp [Actuator.moving, hst] at hm <;> exact if_pos hc

theorem sensorChanged_arrives (h : x.cfg.sensing.has e = true) (hst : x.state = .travel) (ht : x.target = some e)
    (ha : v.active e = true) (hc : ¬ conflicting v x) : x.sensorChanged v e = x.enterSettle v e := by
  rw [sensorChanged_used h, hst]
  dsimp only
  rw [if_neg ((inConflict_iff v x).not.mpr hc), if_pos (by simp [ht, ha])]

theorem not_conflicting_of_drop (h : x.cfg.sensing.has e = true) (ha : v.active e = false) : ¬ conflicting v x := by
  rintro ⟨_, hx, hr⟩
  cases e with
  | x => exact Bool.false_ne_true (ha.symm.trans hx)
  | r => exact Bool.false_ne_true (ha.symm.trans hr)

theorem sensorChanged_drops (h : x.cfg.sensing.has e = true) (hst : x.state = .settle) (ht : x.target = some e)
    (ha : v.active e = false) : x.sensorChanged v e = x.settleDrop v := by
  rw [sensorChanged_used h, hst]
  dsimp only
  rw [if_neg ((inConflict_iff v x).not.mpr (not_conflicting_of_drop h ha)), if_pos (by simp [ht, ha])]

theorem sensorChanged_passes (h : x.cfg.sensing.has e = true) (hm : x.moving = true) (hc : ¬ conflicting v x)
    (hn : ¬ (x.target = some e ∧ (x.state = .travel ∧ v.active e = true ∨ x.state = .settle ∧ v.active e = false))) :
    x.sensorChanged v e = x.silent := by
  have hc := (inConflict_iff v x).not.mpr hc
  rw [sensorChanged_used h]
  cases hst : x.state <;> simp [Actuator.moving, hst] at hm <;> dsimp only <;> rw [if_neg hc]
  all_goals
    refine if_neg fun hb => hn ?_
    simpa [hst] using hb

theorem sensorChanged_tracks (h : x.cfg.sensing.has e = true) (hst : x.state = .rest)
    (hn : v.mode ≠ .run ∨ x.supervised = false) : x.sensorChanged v e = (tracked v x).silent := by
  rw [sensorChanged_used h, hst]
  refine if_neg fun hb => ?_
  simp only [Bool.and_eq_true, beq_iff_eq] at hb
  obtain hn | hn := hn
  · exact hn hb.1
  · exact Bool.false_ne_true (hn.symm.trans hb.2)

theorem sensorChanged_supervised (h : x.cfg.sensing.has e = true) (hst : x.state = .rest) (hmode : v.mode = .run)
    (hs : x.supervised = true) : x.sensorChanged v e = x.restSupervised v e := by
  rw [sensorChanged_used h, hst]
  exact if_pos (by rw [hmode, hs]; rfl)

theorem restSupervised_drifts (hp : x.position = e.position) (ha : v.active e = false) :
    x.restSupervised v e = x.faultWith v .drift := if_pos (by simp [hp, ha])

theorem restSupervised_holds (hp : x.position = e.position → v.active e = true) :
    x.restSupervised v e = if x.inConflict v then x.faultWith v .conflict else x.silent :=
  if_neg fun hb => by
    simp only [Bool.and_eq_true, beq_iff_eq, Bool.not_eq_true'] at hb
    exact Bool.false_ne_true (hb.2.symm.trans (hp hb.1))

end

/-! ## A change of a filtered level, as an event (R122) -/

/-- The change of the sensor `i` is handed to its actuator in the event `e`. -/
def sensorEvent (v : Env) (i : InputIx) (e : Event) : Event :=
  e.act v (inputAct i) fun w x => x.sensorChanged w (inputEnd i)

section

variable {s u : State} {i : InputIx} {e : Event}

theorem sensorTaken (hm : e.m = s.motion) (hw : ∀ n ∈ e.raised, n.cls = .watch) (htime : u.time = s.time)
    (hmode : u.modes.mode = s.modes.mode) (hu : u.motion = (sensorEvent u.env i e).m)
    (huse : (s.motion.act (inputAct i)).cfg.sensing.has (inputEnd i) = true) :
    SensorTaken s u i (sensorEvent u.env i e).raised := by
  obtain ⟨x, hx⟩ : ∃ x, x = s.motion.act (inputAct i) := ⟨_, rfl⟩
  have hxm : e.m.act (inputAct i) = x := by rw [hm, hx]
  have hactive : ∀ {b}, (u.inputs.get i).filtered = b → (u.env.view (inputAct i)).active (inputEnd i) = b := fun h =>
    (active_inputEnd u.env i).trans h
  have htime' : u.env.time = s.time := htime
  have hnow : (u.env.view (inputAct i)).time = s.time := htime
  have hmode' : (u.env.view (inputAct i)).mode = s.modes.mode := hmode
  have faults : ∀ {c}, x.sensorChanged (u.env.view (inputAct i)) (inputEnd i) = x.faultWith (u.env.view (inputAct i)) c →
      FaultedWith s.time c x (u.motion.act (inputAct i)) ∧
        actFaultNotice (inputAct i) c ∈ (sensorEvent u.env i e).raised := fun h => by
    rw [hu, ← htime']
    exact act_faults u.env (inputAct i) _ e x _ (by rw [hxm]; exact h)
  have quiet : ∀ {y}, x.sensorChanged (u.env.view (inputAct i)) (inputEnd i) = y.silent →
      sensorEvent u.env i e = e.setAct (inputAct i) y := fun h => act_quiet _ _ _ _ _ (by rw [hxm]; exact h)
  have becomes : ∀ {y}, x.sensorChanged (u.env.view (inputAct i)) (inputEnd i) = y.silent →
      u.motion = s.motion.setAct (inputAct i) y := fun h => by rw [hu, quiet h, m_setAct, hm]
  have stays : x.sensorChanged (u.env.view (inputAct i)) (inputEnd i) = x.silent →
      u.motion = s.motion ∧ ∀ n ∈ (sensorEvent u.env i e).raised, n.cls = .watch := fun h => by
    refine ⟨(becomes h).trans ?_, ?_⟩
    · rw [hx, setAct_act]
    · rw [quiet h]
      exact hw
  have arrived : ∀ {y : Actuator}, y = { x with state := .settle, target := some (inputEnd i), entryTime := s.time } →
      x.sensorChanged (u.env.view (inputAct i)) (inputEnd i) = y.arrive (u.env.view (inputAct i)) (inputEnd i) true →
      ArrivedAt s.time (inputEnd i) true x (u.motion.act (inputAct i)) := fun hy h => by
    have ha := act_arrives u.env (inputAct i) (fun w x => x.sensorChanged w (inputEnd i)) e _ _ _ (by rw [hxm]; exact h)
    rw [htime', hy] at ha
    rw [hu]
    exact ⟨ha.state, ha.position, ha.supervised, ha.target, ha.entry, ha.timers, ha.coils, ha.cfg⟩
  rw [← hx] at huse
  constructor <;> rw [← hx]
  case arrives =>
    intro hst ht hf hc hsettle
    refine arrived rfl ?_
    rw [sensorChanged_arrives huse hst ht (hactive hf) hc, enterSettle_eq _ _ _ hc, if_pos hsettle, hnow]
  case settles =>
    intro hst ht hf hc hsettle
    refine (becomes (y := { x with
      state := .settle, target := some (inputEnd i), entryTime := s.time, settleTimer := some x.cfg.settleTime }) ?_).trans ?_
    · rw [sensorChanged_arrives huse hst ht (hactive hf) hc, enterSettle_eq _ _ _ hc, if_neg hsettle, hnow]
    · rw [← ht]
  case returns =>
    intro hst ht hf htimer
    refine becomes ?_
    rw [sensorChanged_drops huse hst ht (hactive hf)]
    exact (if_neg (by simpa [← Option.isSome_iff_ne_none] using htimer)).trans (by rw [hnow])
  case timesOut =>
    intro hst ht hf htimer
    refine faults ?_
    rw [sensorChanged_drops huse hst ht (hactive hf)]
    exact if_pos (by rw [htimer]; rfl)
  case conflicts => exact fun hmove hc => faults (sensorChanged_conflict huse hmove hc)
  case passes =>
    intro hmove hc hn
    refine stays (sensorChanged_passes huse hmove hc fun ⟨ht, hb⟩ => hn ⟨ht, ?_⟩)
    rwa [active_inputEnd] at hb
  case tracks =>
    intro hst hn
    refine becomes (sensorChanged_tracks huse hst ?_)
    rwa [hmode']
  case drifts =>
    intro hst hrun hs hp hf
    refine faults ?_
    rw [sensorChanged_supervised huse hst (hmode'.trans hrun) hs, restSupervised_drifts hp (hactive hf)]
  case conflictsAtRest =>
    intro hst hrun hs hp hc
    refine faults ?_
    rw [sensorChanged_supervised huse hst (hmode'.trans hrun) hs, restSupervised_holds fun h => hactive (hp h)]
    exact if_pos ((inConflict_iff _ _).mpr hc)
  case rests =>
    intro hst hrun hs hp hc
    refine (stays ?_).1
    rw [sensorChanged_supervised huse hst (hmode'.trans hrun) hs, restSupervised_holds fun h => hactive (hp h)]
    exact if_neg ((inConflict_iff _ _).not.mpr hc)
  case still => exact fun h => (stays (sensorChanged_still h)).1

end

/-- The filtered level of an input is `b`, its stability timer gone. -/
def changed (i : InputIx) (b : Bool) (s : State) : State := s.setInput i { s.inputs.get i with filtered := b, timer := none }

/-- The event of a change of a filtered level, with the WATCH notice of its edge. -/
def edgeEvent (i : InputIx) (b : Bool) (s : State) : Event :=
  { m := s.motion, raised := watchNotices (s.inputs.get i).watch i b, started := [] }

theorem watchNotices_watch (w : Watch) (i : InputIx) (b : Bool) : ∀ n ∈ watchNotices w i b, n.cls = .watch := by
  intro n hn
  cases w <;> cases b <;> simp only [watchNotices, List.mem_singleton, List.not_mem_nil] at hn <;> rw [hn]

theorem levelChange_eq (i : InputIx) (b : Bool) (s : State) :
    s.levelChange i b = { s := changed i b s, e := sensorEvent (changed i b s).env i (edgeEvent i b s) } := by
  have hedge : (if (s.inputs.get i).watch.catches b then
      (changed i b s).event.raise { cls := .watch, source := some i.val, detail := flagByte b, tag := none }
      else (changed i b s).event) = edgeEvent i b s := by
    unfold edgeEvent watchNotices
    cases (s.inputs.get i).watch <;> cases b <;> rfl
  rw [← hedge]
  rfl

/-- What a change of a filtered level makes of `s`, whose heart, mode and time it finds. -/
theorem levelChange_handedOn {s t u : State} (i : InputIx) (b : Bool) (hmotion : t.motion = s.motion)
    (hmode : t.modes.mode = s.modes.mode) (htime : t.time = s.time) (hu : u.motion = (t.levelChange i b).e.m)
    (henv : u.env = (changed i b t).env) : HandedOn s u i (t.levelChange i b).e.raised := by
  have hget : u.inputs.get i = { t.inputs.get i with filtered := b, timer := none } :=
    (congrArg (fun v => v.inputs.get i) henv).trans (setVec_get_self ..)
  have hwatch := watchNotices_watch (t.inputs.get i).watch i b
  rw [levelChange_eq] at hu ⊢
  constructor
  case watch =>
    rw [hget]
    exact (act_watch ..).trans (List.filter_eq_self.mpr fun n hn => by simpa using hwatch n hn)
  case free =>
    intro hfree
    have hquiet : sensorEvent (changed i b t).env i (edgeEvent i b t) = edgeEvent i b t := by
      refine (act_quiet _ _ _ _ (s.motion.act (inputAct i)) ?_).trans ?_
      · exact (congrArg _ (congrArg (·.act (inputAct i)) hmotion)).trans (sensorChanged_free hfree)
      · exact Event.ext_parts (by rw [m_setAct, ← hmotion]; exact setAct_act ..) rfl rfl
    rw [hu, hquiet, hget]
    exact ⟨hmotion, rfl⟩
  case used =>
    rw [← henv] at hu ⊢
    exact sensorTaken (e := edgeEvent i b t) hmotion hwatch ((congrArg Env.time henv).trans htime)
      ((congrArg Env.mode henv).trans hmode) hu

/-! ## The stability timing of an input (R121) -/

theorem levelChange_yields {c : Instr} {s t : State} {i : InputIx} {b : Bool}
    (hx : exec c s = .next (t.levelChange i b).close) :
    Yields c s { changed i b t with motion := (t.levelChange i b).e.m } (t.levelChange i b).e.raised :=
  Yields.of_close _ hx (by rw [levelChange_eq]; exact (act_raised ..).1) (by rw [levelChange_eq]) rfl

theorem exec_stabilityTimerExpiry {s : State} {i : InputIx} (hop : Operating s) (ht : (s.inputs.get i).timer = some 0) :
    exec (.stabilityTimerExpiry i) s = .next
      (if (s.inputs.get i).inverted = (s.inputs.get i).filtered then
        (s.setInput i { s.inputs.get i with timer := none }).body else s.levelChange i (s.inputs.get i).inverted).close := by
  have hx : exec (.stabilityTimerExpiry i) s = .next (s.live (State.stabilityExpiry i)) := rfl
  rw [hx, live_operating _ hop]
  exact congrArg _ (if_pos (by rw [ht]; rfl))

/-- Settles O22: the timer is spent, and a level that has changed is handed on. -/
theorem stabilityExpiryTakesTheLevel : Obligations.StabilityExpiryTakesTheLevel := by
  intro s i hop ht
  have hx := exec_stabilityTimerExpiry hop ht
  refine ⟨fun h => ?_, fun h => ?_⟩
  · have ha : (s.inputs.get i).inverted = (s.inputs.get i).filtered := h
    rw [if_pos ha] at hx
    exact Yields.of_body _ hx
  · have hd : (s.inputs.get i).inverted ≠ (s.inputs.get i).filtered := h
    rw [if_neg hd] at hx
    exact ⟨_, _, levelChange_yields hx, rfl, levelChange_handedOn i _ rfl rfl rfl rfl rfl⟩

/-- Settles O23: the used half of what a change of level hands on. -/
theorem sensorChangesMoveTheActuator : Obligations.SensorChangesMoveTheActuator := by
  intro s i hop ht h huse
  obtain ⟨u, raised, hyields, hframe, hhanded⟩ := (stabilityExpiryTakesTheLevel s i hop ht).2 h
  exact ⟨u, raised, hyields, hframe, hhanded.used huse⟩

/-! ## Changes of the pins (R115, R121, R124) -/

section

variable {s : State}

theorem exec_inputRawChange {i : InputIx} {level : Bool} (hop : Operating s) (h : (s.inputs.get i).raw ≠ level) :
    exec (.inputRawChange i level) s = .next ((s.rawOnly i level).retime i).close := by
  show execInputRawChange i level s = _
  unfold execInputRawChange
  rw [if_neg h, hop.1, live_operating _ hop]
  rfl

theorem rawOnly_get (i : InputIx) (level : Bool) : (s.rawOnly i level).inputs.get i = { s.inputs.get i with raw := level } :=
  setVec_get_self ..

theorem rawOnly_setInput (i : InputIx) (level : Bool) (x : Input) : (s.rawOnly i level).setInput i x = s.setInput i x := by
  unfold State.rawOnly State.setInput
  rw [setVec_setVec]

theorem retime_agrees {i : InputIx} (h : (s.inputs.get i).inverted = (s.inputs.get i).filtered) :
    s.retime i = (s.setInput i { s.inputs.get i with timer := none }).body := if_pos h

theorem retime_starts {i : InputIx} (h : (s.inputs.get i).inverted ≠ (s.inputs.get i).filtered)
    (hf : (s.inputs.get i).filterTime ≠ 0) :
    s.retime i = (s.setInput i { s.inputs.get i with timer := some (s.inputs.get i).filterTime.toNat }).body :=
  (if_neg h).trans (if_neg hf)

theorem retime_at_once {i : InputIx} (h : (s.inputs.get i).inverted ≠ (s.inputs.get i).filtered)
    (hf : (s.inputs.get i).filterTime = 0) : s.retime i = s.levelChange i (s.inputs.get i).inverted :=
  (if_neg h).trans (if_pos hf)

end

/-- Settles O21: a pin change is timed afresh: it agrees, starts the timer, or is taken at once. -/
theorem pinChangesStartTheFilters : Obligations.PinChangesStartTheFilters := by
  refine ⟨fun s i level hop h => ?_, fun s i level hop h => ⟨fun ha => ?_, fun hd hf => ?_, fun hd hf => ?_⟩,
    fun s level hop => ⟨fun h => ?_, fun h => ?_⟩, fun s k level hop => ⟨fun h => ?_, fun h => ?_⟩⟩
  · exact (if_pos h).trans (congrArg answered (live_operating id hop))
  · have hx := exec_inputRawChange hop h
    rw [retime_agrees (by rw [rawOnly_get]; exact ha), rawOnly_get, rawOnly_setInput] at hx
    exact Yields.of_body _ hx
  · have hx := exec_inputRawChange hop h
    rw [retime_starts (by rw [rawOnly_get]; exact hd) (by rw [rawOnly_get]; exact hf), rawOnly_get, rawOnly_setInput] at hx
    exact Yields.of_body _ hx
  · have hx := exec_inputRawChange hop h
    rw [retime_at_once (by rw [rawOnly_get]; exact hd) (by rw [rawOnly_get]; exact hf), rawOnly_get] at hx
    refine ⟨_, _, levelChange_yields hx, ?_, levelChange_handedOn i _ rfl rfl rfl rfl rfl⟩
    unfold changed
    rw [rawOnly_setInput, rawOnly_get]
    rfl
  · exact (if_pos h).trans (congrArg answered (live_operating id hop))
  · have hx : exec (.haltPinChange level) s = .next _ :=
      (if_neg h).trans ((if_neg (by rw [hop.1]; decide)).trans (congrArg answered (live_operating _ hop)))
    exact Yields.of_body _ hx
  · exact (if_pos h).trans (congrArg answered (live_operating id hop))
  · have hx : exec (.drvfltPinChange k level) s = .next _ :=
      (if_neg h).trans ((if_neg (by rw [hop.1]; decide)).trans (congrArg answered (live_operating _ hop)))
    exact Yields.of_body _ hx

end Sys2Proof.Proofs.SensorChanges
end

section
/-! PROOFS of the family other: how a move that starts leaves its actuator, whatever its record, and the halt of the part (R9 to
R17, R24, R28, R29, R63, R64, R138, R141). -/

namespace Sys2Proof.Proofs.HaltOfThePart

open Sys2Proof.Machine Sys2Proof.Safety Sys2Proof.Proofs.LaneRequests Sys2Proof.Proofs.ActuatorLaws
open Sys2Proof.Proofs.QueueAndPool

/-! ## The start of a move -/

/-- A move that a party has started: it has faulted its actuator, left it at rest, or it goes on. -/
inductive Begun (o : Owner) : ActOut → Prop
  | fault (v : View) (c : ActFault) (x : Actuator) (ho : x.owner = o) : Begun o (x.faultWith v c)
  | rests {out : ActOut} (hstate : out.act.state = .rest) (hreport : out.report = .done o)
      (howner : out.act.owner = ownerKept o) : Begun o out
  | moves {out : ActOut} (hmoving : out.act.moving = true) (hreport : out.report = .quiet) (howner : out.act.owner = o) :
      Begun o out

section

variable (v : View) (t : End) {x : Actuator} {o : Owner}

theorem finish_begun (hstate : x.state = .rest) (ho : x.owner = o) : Begun o x.finish := by
  rw [finish_eq, ho]
  exact .rests hstate rfl rfl

theorem enterSettle_begun (ho : x.owner = o) : Begun o (x.enterSettle v t) := by
  unfold Actuator.enterSettle
  dsimp only
  split
  · exact .fault _ _ _ ho
  · split
    · exact finish_begun rfl ho
    · exact .moves rfl rfl ho

theorem enterTravel_begun (ho : x.owner = o) : Begun o (x.enterTravel v t) := by
  unfold Actuator.enterTravel
  obtain ⟨la, lb, p, hfields⟩ := energise_fields t { x with
    state := .travel, target := some t, entryTime := v.time, gapTimer := none,
    travelTimer := some x.cfg.travelLimit, settleTimer := none }
  rw [hfields]
  dsimp only
  split
  · exact .fault _ _ _ ho
  · split
    · exact enterSettle_begun v t ho
    · exact .moves rfl rfl ho

theorem enterGap_begun (ho : x.owner = o) : Begun o (x.enterGap v t) := by
  unfold Actuator.enterGap
  obtain ⟨la, lb, hcut⟩ := cutPulse_fields x
  obtain ⟨la', lb', hset⟩ := setCoil_fields t.opposite false { x with lineA := la, lineB := lb, pulse := none }
  rw [hcut, hset]
  dsimp only
  split
  · exact .fault _ _ _ ho
  · split
    · exact enterTravel_begun v t ho
    · exact .moves rfl rfl ho

theorem moveToward_begun (ho : x.owner = o) : Begun o (x.moveToward v t) := by
  unfold Actuator.moveToward
  split
  · next hat =>
    obtain ⟨la, lb, p, hhold⟩ := holdAt_fields t x
    rw [hhold]
    simp only [Bool.and_eq_true, beq_iff_eq] at hat
    exact finish_begun hat.1.1 ho
  · unfold Actuator.runMove
    dsimp only
    split
    · exact enterGap_begun v t ho
    · exact enterTravel_begun v t ho

theorem releaseMove_begun (ho : x.owner = o) : Begun o (x.releaseMove v) := by
  unfold Actuator.releaseMove
  obtain ⟨la, lb, p, hoff⟩ := coilsOff_fields x.stopTimers
  rw [hoff]
  exact finish_begun rfl ho

theorem startMove_begun (o : Owner) (target : MoveTarget) (x : Actuator) : Begun o (x.startMove v o target) := by
  unfold Actuator.startMove
  dsimp only
  split
  · exact .fault _ _ _ rfl
  · cases target with
    | extend => exact moveToward_begun v .x rfl
    | retract => exact moveToward_begun v .r rfl
    | release => exact releaseMove_begun v rfl

theorem safeMove_begun (x : Actuator) : Begun .safe (x.safeMove v t) := by
  unfold Actuator.safeMove
  split
  · next h =>
    simp only [Bool.and_eq_true] at h
    exact .moves h.1 rfl rfl
  · exact startMove_begun ..

end

section

variable {o : Owner} {out : ActOut}

/-- A move that has faulted says so, with the code that the actuator records. -/
theorem Begun.faulted (h : Begun o out) (hf : out.act.state = .faulted) :
    ∃ c, out.report = .failed o c ∧ out.act.fault = some c := by
  cases h with
  | fault v c x ho =>
    obtain ⟨hspec, hreport⟩ := faultWith_spec v c x
    exact ⟨c, ho ▸ hreport, hspec.fault⟩
  | rests hstate => exact ActState.noConfusion (hstate.symm.trans hf)
  | moves hmoving => simp [Actuator.moving, hf] at hmoving

theorem Begun.report (h : Begun o out) : ReportsTo o out.report := by
  cases h with
  | fault v c x ho =>
    rw [(faultWith_spec v c x).2, ho]
    exact .failed c
  | rests _ hreport =>
    rw [hreport]
    exact .done
  | moves _ hreport =>
    rw [hreport]
    exact .quiet

theorem Begun.safe_owner (h : Begun .safe out) : out.act.owner = .none ∨ out.act.owner = .safe := by
  cases h with
  | fault v c x => exact .inl (faultWith_spec v c x).1.owner
  | rests _ _ howner => exact .inl howner
  | moves _ _ howner => exact .inr howner

end

/-! ## The safe actions (R28, R29) -/

section

variable {v : View} {x : Actuator}

/-- An actuator that takes no safe action. -/
theorem safeAct_skipped (h : x.managed = false ∨ x.state = .faulted ∨ x.state = .off) : x.safeAct v = x.silent :=
  if_pos (by obtain h | h | h := h <;> simp [h])

/-- A safe action that is taken: a still one, or a move. -/
theorem safeAct_taken (hm : x.managed = true) (hoff : x.state ≠ .off) (hf : x.state ≠ .faulted) :
    ((x.cfg.safeAction = .hold ∨ x.cfg.safeAction = .release) ∧ ∃ c, x.safeAct v = (x.safeStill v c).silent) ∨
      ∃ t, x.safeAct v = x.safeMove v t := by
  unfold Actuator.safeAct
  rw [if_neg (by simp [hm, hoff, hf])]
  cases x.cfg.safeAction with
  | hold => exact .inl ⟨.inl rfl, .hold, rfl⟩
  | release => exact .inl ⟨.inr rfl, .release, rfl⟩
  | extend => exact .inr ⟨.x, rfl⟩
  | retract => exact .inr ⟨.r, rfl⟩

theorem safeStill_still (c : Machine.Action) (hf : x.state ≠ .faulted) :
    (x.safeStill v c).moving = false ∧ (x.safeStill v c).owner = .none ∧ (x.safeStill v c).state ≠ .faulted := by
  unfold Actuator.safeStill
  by_cases hm : x.moving = true
  · rw [if_pos hm, stopWith_eq]
    obtain ⟨hstate, howner, _⟩ := stoppedBy_rests v c x
    exact ⟨by simp [Actuator.moving, hstate], howner, by simp [hstate]⟩
  · rw [if_neg hm]
    have hmoving : x.moving = false := Bool.eq_false_iff.mpr hm
    cases c with
    | hold => exact ⟨hmoving, rfl, hf⟩
    | release =>
      obtain ⟨la, lb, p, hoff⟩ := coilsOff_fields x
      dsimp only
      rw [hoff, fromSensors_eq]
      obtain ⟨pos, sup, htracked⟩ := LaneRequests.tracked_fields v { x with
        lineA := la, lineB := lb, pulse := p, owner := .none }
      rw [htracked]
      exact ⟨hmoving, rfl, hf⟩

/-- A safe action hands no result to a lane or a jog, and says so where it faults its actuator. -/
theorem safeAct_reports (hf : x.state ≠ .faulted) :
    ReportsTo .safe (x.safeAct v).report ∧ ((x.safeAct v).act.state = .faulted →
      ∃ c, (x.safeAct v).report = .failed .safe c ∧ (x.safeAct v).act.fault = some c) := by
  by_cases hskip : x.managed = false ∨ x.state = .faulted ∨ x.state = .off
  · rw [safeAct_skipped hskip]
    exact ⟨.quiet, fun h => absurd h hf⟩
  · simp only [not_or, Bool.not_eq_false] at hskip
    obtain ⟨_, c, hstill⟩ | ⟨t, hmove⟩ := safeAct_taken (v := v) hskip.1 hskip.2.2 hf
    · rw [hstill]
      exact ⟨.quiet, fun h => absurd h (safeStill_still c hf).2.2⟩
    · rw [hmove]
      exact ⟨(safeMove_begun v t x).report, (safeMove_begun v t x).faulted⟩

end

/-! ## The halt of the part (R138, R141) -/

section

variable {s t : State} {cause : HaltCause} {cls : NoticeClass}

/-- The part in HALTED for a cause. -/
def halted (cause : HaltCause) (t : State) : State :=
  { t with modes := { t.modes with mode := .halted, haltCause := some cause } }

/-- The notice of a halt or a link loss. -/
def haltNote (cls : NoticeClass) : Raised := { cls := cls, source := none, detail := 0, tag := none }

/-- The event in which the part halts. -/
def haltEvent (cause : HaltCause) (cls : NoticeClass) (t : State) : Event :=
  ((halted cause t).event.haltAll (halted cause t).env).raise (haltNote cls)

theorem haltPart_halts (h : t.modes.mode ≠ .halted) :
    t.haltPart cause cls = { s := halted cause t, e := haltEvent cause cls t } := if_neg (by simpa using h)

theorem haltPart_again (h : t.modes.mode = .halted) : t.haltPart cause cls = { s := t, e := t.event.raise (haltNote cls) } :=
  if_pos (by simpa using h)

theorem mem_haltNotices {l : LaneIx} {ln : Lane} {h : Machine.Step} {rest : List Machine.Step} (hr : ln.state = .running)
    (hs : ln.steps = h :: rest) :
    { cls := .laneFault, source := some l.val, detail := LaneFault.halted.code, tag := some h.tag } ∈ haltNotices l ln := by
  simp [haltNotices, hr, hs]

theorem haltNotices_cls {l : LaneIx} {ln : Lane} : ∀ n ∈ haltNotices l ln, n.cls = .laneFault := by
  intro n hn
  unfold haltNotices at hn
  split at hn
  · obtain ⟨h, _, rfl⟩ := List.mem_map.mp hn
    rfl
  · cases hn

/-- The notices of an event that the halt orders, those of the lanes before those of the actuators. -/
theorem safeNotices_cls {a : ActIx} {x : Actuator} {v : View} : ∀ n ∈ ownNotices a (x.safeAct v), n.cls = .actFault := by
  intro n hn
  by_cases hf : x.state = .faulted
  · rw [safeAct_skipped (.inr (.inl hf))] at hn
    cases hn
  · have hreport := (safeAct_reports (v := v) hf).1
    unfold ownNotices at hn
    generalize (x.safeAct v).report = r at hreport hn
    cases hreport with
    | quiet | done => cases hn
    | failed c =>
      obtain rfl := List.mem_singleton.mp hn
      rfl

theorem haltEvent_halts (henv : t.env = s.env) (hmotion : t.motion = s.motion) (hmodes : t.modes = s.modes)
    (cause : HaltCause) (cls : NoticeClass) :
    Halts s { halted cause t with motion := (haltEvent cause cls t).m } (haltEvent cause cls t).raised cause cls := by
  obtain ⟨v, hv⟩ : ∃ v, v = (halted cause t).env := ⟨_, rfl⟩
  obtain ⟨e, he⟩ : ∃ e, e = (halted cause t).event.haltAll v := ⟨_, rfl⟩
  have hordered : HaltOrdered v (halted cause t).event e := he ▸ haltAll_ordered ..
  have hevent : haltEvent cause cls t = e.raise (haltNote cls) := by
    rw [he, hv]
    rfl
  have hm : (halted cause t).event.m = s.motion := hmotion
  have hact : ∀ a, e.m.act a = ((s.motion.act a).safeAct (s.env.view a)).act := fun a => by
    rw [hordered.act, hm, hv, ← henv]
    rfl
  have hraised : ∀ n, n ∈ (haltEvent cause cls t).raised ↔ (∃ l, n ∈ haltNotices l (s.motion.lane l)) ∨
      (∃ a, n ∈ ownNotices a ((s.motion.act a).safeAct (s.env.view a))) ∨ n = haltNote cls := fun n => by
    have hview : ∀ a, ((s.motion.act a).safeAct (v.view a)) = (s.motion.act a).safeAct (s.env.view a) := fun a => by
      rw [hv, ← henv]
      rfl
    rw [hevent, raised_raise, hordered.raised, hm]
    simp [hview, mem_allLanes, mem_allActs]
  have hmo : (haltEvent cause cls t).m = e.m := by
    rw [hevent]
    rfl
  rw [hmo]
  refine { modes := ?modes, queue := hordered.queue, marks := ?marks, pool := ?pool, lanes := ?lanes, untouched := ?untouched,
           unowned := ?unowned, still := ?still, safe := ?safe, notice := ?notice, actFault := ?actFault, noOther := ?noOther,
           laneFault := ?laneFault }
  case modes =>
    rw [← hmodes]
    rfl
  case marks => exact hordered.marks.trans (congrArg Motion.marks hm)
  case pool => exact hordered.poolFree.trans (congrArg Motion.poolFree hm)
  case lanes =>
    intro l hl
    refine (hordered.lane l).trans ?_
    rw [hm]
    exact if_neg fun ⟨hr, hs⟩ => hl hr hs
  case untouched =>
    intro a ha
    refine (hact a).trans (congrArg ActOut.act (safeAct_skipped ?_))
    obtain ha | ha := ha
    · exact .inl ha
    · exact .inr (.inl ha)
  case unowned =>
    intro a hmg hoff hf
    rw [hact]
    obtain ⟨_, c, hstill⟩ | ⟨e, hmove⟩ := safeAct_taken (v := s.env.view a) hmg hoff hf
    · rw [hstill]
      exact .inl (safeStill_still c hf).2.1
    · rw [hmove]
      exact (safeMove_begun ..).safe_owner
  case still =>
    intro a hmg hoff hf hsafe
    rw [hact]
    have hspec := safeAct_spec (s.env.view a) (s.motion.act a) hmg hoff hf
    have hstill : ∃ c, (s.motion.act a).safeAct (s.env.view a) = ((s.motion.act a).safeStill (s.env.view a) c).silent := by
      unfold Actuator.safeAct
      rw [if_neg (by simp [hmg, hoff, hf])]
      obtain hsafe | hsafe := hsafe <;> rw [hsafe] <;> exact ⟨_, rfl⟩
    obtain ⟨c, hstill⟩ := hstill
    rw [hstill]
    exact ⟨(safeStill_still c hf).1, (safeStill_still c hf).2.1⟩
  case safe =>
    intro a hmg hoff hf
    rw [hact]
    exact safeAct_spec (s.env.view a) (s.motion.act a) hmg hoff hf
  case notice => exact (hraised _).mpr (.inr (.inr rfl))
  case actFault =>
    intro a code hf hfaulted hcode
    rw [hact] at hfaulted hcode
    obtain ⟨c, hreport, hfault⟩ := (safeAct_reports (v := s.env.view a) hf).2 hfaulted
    obtain rfl := Option.some_inj.mp (hfault.symm.trans hcode)
    refine (hraised _).mpr (.inr (.inl ⟨a, ?_⟩))
    unfold ownNotices
    rw [hreport]
    exact List.mem_singleton_self _
  case noOther =>
    intro n hn
    obtain ⟨l, hn⟩ | ⟨a, hn⟩ | rfl := (hraised n).mp hn
    · exact .inr (.inr (haltNotices_cls n hn))
    · exact .inr (.inl (safeNotices_cls n hn))
    · exact .inl rfl
  case laneFault =>
    intro l h rest hr hs
    exact (hraised _).mpr (.inl ⟨l, mem_haltNotices hr hs⟩)

theorem haltEvent_started (cause : HaltCause) (cls : NoticeClass) (t : State) : (haltEvent cause cls t).started = [] := by
  unfold haltEvent
  rw [started_raise]
  exact (haltAll_ordered (halted cause t).env (halted cause t).event).started

/-- The halt of the part, as the event of a command. -/
theorem yields_halts {c : Instr} (henv : t.env = s.env) (hmotion : t.motion = s.motion) (hmodes : t.modes = s.modes)
    (h : t.modes.mode ≠ .halted) (hx : exec c s = .next (t.haltPart cause cls).close) :
    ∃ m raised, Yields c s { halted cause t with motion := m } raised ∧
      Halts s { halted cause t with motion := m } raised cause cls := by
  rw [haltPart_halts h] at hx
  exact ⟨_, _, Yields.of_close _ hx (haltEvent_started ..) rfl rfl, haltEvent_halts henv hmotion hmodes cause cls⟩

/-- In HALTED the notice alone is raised. -/
theorem yields_halted_again {c : Instr} (h : t.modes.mode = .halted) (hx : exec c s = .next (t.haltPart cause cls).close) :
    Yields c s t [haltNote cls] := by
  rw [haltPart_again h] at hx
  exact Yields.of_close _ hx rfl rfl rfl

theorem exec_haltFilterExpiry (hop : Operating s) (ht : s.haltIn.timer = some 0) :
    exec .haltFilterExpiry s = .next s.haltLevel.close := by
  have hx : exec .haltFilterExpiry s = .next (s.live State.haltExpiry) := rfl
  rw [hx, live_operating _ hop]
  exact congrArg _ (if_pos (by rw [ht]; rfl))

theorem exec_linkWatchExpiry (hop : Operating s) (ht : s.link.watchTimer = some 0) : exec .linkWatchExpiry s =
    .next (State.haltPart .linkLost .link { s with link := { s.link with watchTimer := none } }).close := by
  have hx : exec .linkWatchExpiry s = .next (s.live State.watchExpired) := rfl
  rw [hx, live_operating _ hop]
  exact congrArg _ (if_pos (by rw [ht]; rfl))

theorem haltLevel_active (hp : s.haltIn.pin = false) (ha : s.haltIn.active = false) : s.haltLevel =
    State.haltPart .haltLine .halt { s with haltIn := { pin := false, active := true, timer := none } } := by
  have hexpire : s.haltIn.expire = { pin := false, active := true, timer := none } := by simp [FixedLine.expire, hp]
  unfold State.haltLevel
  rw [hexpire, ha]
  rfl

theorem haltLevel_inactive (hp : s.haltIn.pin = true) :
    s.haltLevel = ({ s with haltIn := { pin := true, active := false, timer := none } } : State).body := by
  have hexpire : s.haltIn.expire = { pin := true, active := false, timer := none } := by simp [FixedLine.expire, hp]
  unfold State.haltLevel
  rw [hexpire]
  rfl

end

/-- Settles O24: outside HALTED the halt order is given to the queue, the lanes and the actuators; in HALTED the notice is raised. -/
theorem haltAndLinkLossHaltThePart : Obligations.HaltAndLinkLossHaltThePart := by
  refine ⟨fun s hop ht => ?_, fun s hop ht => ?_⟩
  · have hx := exec_haltFilterExpiry hop ht
    refine ⟨fun hp ha hmode => ?_, fun hp ha hmode => ?_, fun hp => ?_⟩
    · rw [haltLevel_active hp ha] at hx
      obtain ⟨m, raised, hyields, hhalts⟩ := yields_halts (s := s)
        (t := { s with haltIn := { pin := false, active := true, timer := none } }) rfl rfl rfl hmode hx
      exact ⟨_, _, hyields, hhalts, rfl⟩
    · rw [haltLevel_active hp ha] at hx
      exact yields_halted_again hmode hx
    · rw [haltLevel_inactive hp] at hx
      exact Yields.of_body _ hx
  · have hx := exec_linkWatchExpiry hop ht
    refine ⟨fun hmode => ?_, fun hmode => yields_halted_again hmode hx⟩
    obtain ⟨m, raised, hyields, hhalts⟩ := yields_halts (s := s)
      (t := { s with link := { s.link with watchTimer := none } }) rfl rfl rfl hmode hx
    exact ⟨_, _, hyields, hhalts, rfl⟩

end Sys2Proof.Proofs.HaltOfThePart
end

section
/-! PROOFS of the family other: frames that are not taken anew, reads, and the settings of the inputs (R123, R125, R159, R163,
R166, R181 to R185). -/

namespace Sys2Proof.Proofs.RequestsAndReads

open Sys2Proof.Machine Sys2Proof.Safety Sys2Proof.Proofs.LaneRequests Sys2Proof.Proofs.Notices
open Sys2Proof.Proofs.OperatingModes Sys2Proof.Proofs.MessageReference Sys2Proof.Proofs.SensorChanges

/-! ## Frames that are not taken anew (R159, R163, R166) -/

/-- A retransmission ends as an event with an empty body, the stored reply queued again. -/
theorem replay_after (frame : List Byte) (s : State) :
    After { s with link := { s.link with replies := s.link.replies ++ [frame] } } [] (s.replay frame) := by
  obtain ⟨slot, hsettle⟩ := settle_eq s (s.event.arbitrate s.env)
  unfold State.replay State.queueReply
  rw [hsettle]
  obtain ⟨_, _, _, _, hbegin⟩ := beginNext_frame (s.link.attnSlot == AttnSlot.empty)
    { s with
      motion := (s.event.arbitrate s.env).m
      notices := { s.notices.takeAll s.time (s.event.arbitrate s.env).raised with
        attn := (s.notices.takeAll s.time (s.event.arbitrate s.env).raised).attention }
      link := { s.link with attnSlot := slot, replies := s.link.replies ++ [frame] } }
  simp only [hbegin]
  exact ⟨rfl, rfl, rfl, rfl, rfl, rfl, rfl, rfl, rfl, rfl, rfl, rfl, ⟨rfl, rfl, rfl, rfl, rfl, rfl, rfl, rfl⟩⟩

section

variable {c : Instr} {seq kind : Byte} {p : List Byte} {s : State}

theorem exec_handled (hc : spoken c = some (seq, kind, p)) (hop : Operating s) (hp : s.modes.pendingRestart = none) :
    exec c s = .next (s.handleFrame seq kind (requestOf kind) p) := by
  rw [exec_spoken hc]
  unfold State.goodFrame
  rw [liveAs_operating _ _ hop, hp]
  rfl

theorem exec_discarded (hc : spoken c = some (seq, kind, p)) (hop : Operating s) (hp : s.modes.pendingRestart ≠ none) :
    exec c s = .next (withRx s .hunt).body.close := by
  rw [exec_spoken hc]
  unfold State.goodFrame
  rw [liveAs_operating _ _ hop, if_pos (Option.isSome_iff_ne_none.mpr hp)]
  rfl

/-- Settles O30: what `goodFrame` does with a frame in each state that does not take it. -/
theorem aGoodFrameNotTakenChangesTheLinkAlone : Obligations.AGoodFrameNotTakenChangesTheLinkAlone := by
  refine fun c seq kind p s hc hop => ⟨fun r hp hroom hr hseq => ?_, fun hp hfull => ?_, fun hp =>
    Yields.of_body _ (exec_discarded hc hop hp)⟩
  · refine ⟨_, (exec_handled hc hop hp).trans ?_, replay_after r.reply (received s)⟩
    rw [handleFrame_eq, if_neg (Nat.not_le.mpr hroom), hr]
    exact congrArg _ (if_pos hseq)
  · refine Yields.of_body _ ((exec_handled hc hop hp).trans ?_)
    rw [handleFrame_eq, if_pos hfull]
    rfl

end

/-! ## Reads (R181 to R185) -/

/-- A request that is answered OK and changes nothing. -/
theorem yields_of_read {c : Instr} {s : State} {seq kind : Byte} {req : Request} {p content : List Byte} (ht : Takes s seq)
    (hx : exec c s = .next (s.goodFrame seq kind req p)) (hq : req p (received s) = okWith (received s).body content) :
    Yields c s (answering s seq kind .ok content) [] := Yields.of_ok _ content ht hx hq rfl rfl rfl

theorem exec_ioRead (seq : Byte) (p : List Byte) (s : State) :
    exec (.ioRead seq p) s = .next (s.goodFrame seq 0x19 reqIoRead p) := rfl

theorem exec_actRead (seq : Byte) (p : List Byte) (s : State) :
    exec (.actRead seq p) s = .next (s.goodFrame seq 0x11 reqActRead p) := rfl

theorem exec_laneRead (seq : Byte) (p : List Byte) (s : State) :
    exec (.laneRead seq p) s = .next (s.goodFrame seq 0x27 reqLaneRead p) := rfl

theorem exec_peek (seq : Byte) (p : List Byte) (s : State) :
    exec (.peek seq p) s = .next (s.goodFrame seq 0x32 reqPeek p) := rfl

theorem reqPeek_eq (s : State) : reqPeek [] s = okWith s.body s.notices.peekBytes := rfl

theorem reqActRead_in_range (a : ActIx) (s : State) : reqActRead [byteOf a.val] s = okWith s.body (s.actBytes a) := by
  simp [reqActRead, indexOf_byteOf 16 (by decide) a]

theorem reqActRead_out_of_range {b : Byte} (h : 15 < b.toNat) (s : State) : reqActRead [b] s = refuse .badArg s := by
  simp [reqActRead, indexOf_none 16 b h]

theorem reqLaneRead_in_range (l : LaneIx) (s : State) :
    reqLaneRead [byteOf l.val] s = okWith s.body (s.motion.lane l).bytes := by
  simp [reqLaneRead, indexOf_byteOf 4 (by decide) l]

theorem reqLaneRead_out_of_range {b : Byte} (h : 3 < b.toNat) (s : State) : reqLaneRead [b] s = refuse .badArg s := by
  simp [reqLaneRead, indexOf_none 4 b h]

theorem runningBytes_of_not_running {ln : Lane} (h : ∀ g rest, ln.steps = g :: rest → g.run ≠ .running) :
    ln.runningBytes = [] := by
  unfold Lane.runningBytes Lane.head?
  cases hs : ln.steps with
  | nil => rfl
  | cons g rest => exact if_neg (by simpa using h g rest hs)

theorem runningBytes_of_running {ln : Lane} {h : Machine.Step} {rest : List Machine.Step} {start : Time}
    (hs : ln.steps = h :: rest) (hr : h.run = .running) (ht : h.startTime = some start) : ln.runningBytes =
      bytes32 start ++ byteOf h.moves.length :: h.results.flatMap fun p => [byteOf p.1.val, p.2.code] := by
  unfold Lane.runningBytes Lane.head?
  rw [hs]
  simp [hr, ht]

theorem peekBytes_none {u : NoticeUnit} (h : u.waiting = []) : u.peekBytes =
    [0, byteOf u.stack.length, u.lost] ++ bytes16 ((u.stack.head?.map (·.id)).getD 0) := by
  simp [NoticeUnit.peekBytes, NoticeUnit.next?, h, topId_eq, byteOf]

theorem peekBytes_eligible {u : NoticeUnit} {r : Notice} (h : u.waiting.find? u.eligible = some r) : u.peekBytes =
    [byteOf u.waiting.length, byteOf u.stack.length, u.lost] ++ bytes16 ((u.stack.head?.map (·.id)).getD 0) ++
      1 :: r.bytes 0 := by
  simp [NoticeUnit.peekBytes, NoticeUnit.next?, h, topId_eq]

theorem peekBytes_first {u : NoticeUnit} {r : Notice} {rest : List Notice} (hw : u.waiting = r :: rest)
    (h : u.waiting.find? u.eligible = none) : u.peekBytes =
    [byteOf u.waiting.length, byteOf u.stack.length, u.lost] ++ bytes16 ((u.stack.head?.map (·.id)).getD 0) ++
      0 :: r.bytes 0 := by
  rw [hw] at h
  simp [NoticeUnit.peekBytes, NoticeUnit.next?, hw, h, topId_eq]

/-- Settles O35: each request answers from the state and hands it back. -/
theorem readsAnswerAndChangeNothing : Obligations.ReadsAnswerAndChangeNothing := by
  refine fun s seq ht => ⟨yields_of_read ht (exec_ioRead ..) rfl, fun a => ?_, fun l hl => ?_,
    fun l h rest start hs hr hst => ?_,
    fun hw => ?_, fun r hr => ?_, fun r rest hw hn => ?_, fun b hb => ?_, fun b hb => ?_⟩
  · refine yields_of_read ht (exec_actRead ..) ((reqActRead_in_range a _).trans ?_)
    simp only [State.actBytes, optByte_eq]
    rfl
  · refine yields_of_read ht (exec_laneRead ..) ((reqLaneRead_in_range l _).trans ?_)
    simp only [received_motion, Lane.bytes, optByte_eq, runningBytes_of_not_running hl, List.append_nil]
    rfl
  · refine yields_of_read ht (exec_laneRead ..) ((reqLaneRead_in_range l _).trans ?_)
    simp only [received_motion, Lane.bytes, optByte_eq, runningBytes_of_running hs hr hst, Lane.head?, hs, hr, List.head?_cons,
      Option.map_some, Option.getD_some, List.append_assoc]
  · exact yields_of_read ht (exec_peek ..)
      ((reqPeek_eq _).trans (congrArg _ (peekBytes_none (u := (received s).notices) hw)))
  · exact yields_of_read ht (exec_peek ..)
      ((reqPeek_eq _).trans (congrArg _ (peekBytes_eligible (u := (received s).notices) hr)))
  · exact yields_of_read ht (exec_peek ..)
      ((reqPeek_eq _).trans (congrArg _ (peekBytes_first (u := (received s).notices) hw hn)))
  · exact Refuses.of_refuse .badArg (by decide) ht (exec_actRead ..) (reqActRead_out_of_range hb _)
  · exact Refuses.of_refuse .badArg (by decide) ht (exec_laneRead ..) (reqLaneRead_out_of_range hb _)

/-! ## INPUT_CONFIG (R123) -/

theorem exec_inputConfig (seq : Byte) (p : List Byte) (s : State) :
    exec (.inputConfig seq p) s = .next (s.goodFrame seq 0x18 reqInputConfig p) := rfl

theorem reqInputConfig_out_of_range {b inv w : Byte} (h : 31 < b.toNat ∨ 1 < inv.toNat ∨ 3 < w.toNat) (time : Byte)
    (s : State) : reqInputConfig [b, time, inv, w] s = refuse .badArg s := by
  unfold reqInputConfig
  obtain h | h | h := h
  · simp [indexOf_none 32 b h]
  · simp [flagOf_none inv h]
  · simp [watch_ofCode_none w h]

theorem reqInputConfig_in_range {w : Byte} {watch : Watch} (hw : Watch.ofCode w = some watch) (i : InputIx) (time : Byte)
    (inv : Bool) (s : State) : reqInputConfig [byteOf i.val, time, flagByte inv, w] s =
      okWith ((s.setInput i { s.inputs.get i with filterTime := time, invert := inv, watch := watch }).retime i) [] := by
  simp [reqInputConfig, indexOf_byteOf 32 (by decide) i, flagOf_flagByte, hw]

theorem setInput_get (s : State) (i : InputIx) (x : Input) : (s.setInput i x).inputs.get i = x := setVec_get_self ..

theorem setInput_setInput (s : State) (i : InputIx) (x y : Input) : (s.setInput i x).setInput i y = s.setInput i y := by
  unfold State.setInput
  rw [setVec_setVec]

/-- Settles O42: the settings are written, then the timing is judged afresh as at a pin change. -/
theorem inputConfigRestartsTheTiming : Obligations.InputConfigRestartsTheTiming := by
  refine fun s seq ht => ⟨fun b time inv w h => Refuses.of_refuse .badArg (by decide) ht (exec_inputConfig ..)
    (reqInputConfig_out_of_range h time _), fun i time w inv watch hw x hx => ?_⟩
  obtain ⟨y, hy⟩ : ∃ y : Input, y = { s.inputs.get i with filterTime := time, invert := inv, watch := watch } := ⟨_, rfl⟩
  have hreq := reqInputConfig_in_range hw i time inv (received s)
  rw [received_inputs, ← hy] at hreq
  have hget : ((received s).setInput i y).inputs.get i = y := setInput_get ..
  have htime : y.filterTime = time := by rw [hy]
  have hinverted : y.inverted = (y.raw != inv) := by
    rw [hy]
    rfl
  have hxy : x = { y with timer := none } := by rw [hx, hy]
  subst hxy
  refine ⟨fun h => ?_, fun h hf => ?_, fun h hf => ?_⟩
  · rw [retime_agrees (by rw [hget, hinverted]; exact h), hget, setInput_setInput] at hreq
    exact Yields.of_ok _ [] ht (exec_inputConfig ..) hreq rfl rfl rfl
  · rw [retime_starts (by rw [hget, hinverted]; exact h) (by rw [hget, htime]; exact hf), hget, setInput_setInput,
      htime] at hreq
    exact Yields.of_ok _ [] ht (exec_inputConfig ..) hreq rfl rfl rfl
  · rw [retime_at_once (by rw [hget, hinverted]; exact h) (by rw [hget, htime]; exact hf), hget, hinverted] at hreq
    obtain ⟨b, hb⟩ : ∃ b, b = ((received s).setInput i y).levelChange i (y.raw != inv) := ⟨_, rfl⟩
    have hlevel : b.s = changed i (y.raw != inv) ((received s).setInput i y) := by rw [hb, levelChange_eq]
    have hchanged : b.s = (received s).setInput i { y with filtered := y.raw != inv, timer := none } := by
      rw [hlevel]
      unfold changed
      rw [setInput_setInput, setInput_get]
    rw [← hb] at hreq
    refine ⟨_, _, Yields.of_ok b [] ht (exec_inputConfig ..) hreq ?_ rfl rfl, ?_, ?_⟩
    · rw [hb, levelChange_eq]
      exact (act_raised ..).1
    · rw [hchanged]
      rfl
    · have hraised := congrArg (fun b : Body => b.e.raised) hb
      have hmotion := congrArg (fun b : Body => b.e.m) hb
      have henv : b.s.env = _ := congrArg State.env hlevel
      exact (congrArg (HandedOn s _ i) hraised).mpr
        (levelChange_handedOn i (y.raw != inv) rfl rfl rfl hmotion henv)

end Sys2Proof.Proofs.RequestsAndReads
end

section
/-! PROOFS of the family other: the requests LANE_CONFIG, MARK_SET, NOTICE_CLASS and FLOOR_SET, and the order of the notices of
an event (R42, R82, R89, R96, R100). -/

namespace Sys2Proof.Proofs.SettingsAndOrder

open Sys2Proof.Machine Sys2Proof.Safety Sys2Proof.Proofs.LaneRequests Sys2Proof.Proofs.Notices
open Sys2Proof.Proofs.OperatingModes Sys2Proof.Proofs.MessageReference

/-! ## LANE_CONFIG and MARK_SET (R42, R82) -/

section

variable {b : Byte} {s : State}

theorem exec_laneConfig (seq : Byte) (p : List Byte) (s : State) :
    exec (.laneConfig seq p) s = .next (s.goodFrame seq 0x20 reqLaneConfig p) := rfl

theorem exec_markSet (seq : Byte) (p : List Byte) (s : State) :
    exec (.markSet seq p) s = .next (s.goodFrame seq 0x28 reqMarkSet p) := rfl

theorem reqLaneConfig_out_of_range {p n : Byte} (h : 3 < b.toNat ∨ 1 < p.toNat ∨ 1 < n.toNat) (c1 c0 : Byte) :
    reqLaneConfig [b, p, c1, c0, n] s = refuse .badArg s := by
  unfold reqLaneConfig
  obtain h | h | h := h
  · simp [indexOf_none 4 b h]
  · simp [faultPolicy_ofCode_none p h]
  · simp [flagOf_none n h]

theorem reqLaneConfig_in_range {p : Byte} {policy : FaultPolicy} (hp : FaultPolicy.ofCode p = some policy) (l : LaneIx)
    (c1 c0 : Byte) (notice : Bool) : reqLaneConfig [byteOf l.val, p, c1, c0, flagByte notice] s =
      if s.modes.mode != .setup then refuse .wrongMode s
      else okWith { s := s, e := s.event.setLane l { s.motion.lane l with
        policy := policy, cycleStop := c1 ++ c0, emptyNotice := notice, cycleCount := 0 } } [] := by
  simp [reqLaneConfig, indexOf_byteOf 4 (by decide) l, hp, flagOf_flagByte, word16]

theorem reqMarkSet_out_of_range {x : Byte} (h : 7 < b.toNat ∨ 1 < x.toNat) : reqMarkSet [b, x] s = refuse .badArg s := by
  unfold reqMarkSet
  obtain h | h := h
  · simp [indexOf_none 8 b h]
  · simp [flagOf_none x h]

theorem reqMarkSet_in_range (k : MarkIx) (level : Bool) : reqMarkSet [byteOf k.val, flagByte level] s =
    okAfter { s := s, e := { s.event with m := s.motion.setMark k level } } fun m => [m.markByte] := by
  simp [reqMarkSet, indexOf_byteOf 8 (by decide) k, flagOf_flagByte]

/-- MARK_SET: the marks of its reply are those of the state the event ends in. -/
theorem exec_markSet_taken {seq : Byte} (ht : Takes s seq) (k : MarkIx) (level : Bool) :
    ∃ t, exec (.markSet seq [byteOf k.val, flagByte level]) s = .next t ∧
      After { answering s seq 0x28 .ok [t.motion.markByte] with motion := s.motion.setMark k level } [] t := by
  have hafter := After.of_answer seq 0x28
    (okAfter { s := received s, e := { s.event with m := s.motion.setMark k level } } fun m => [m.markByte]) rfl rfl
  refine ⟨_, (exec_markSet ..).trans (congrArg _ (goodFrame_taken ht ..)), ?_⟩
  rw [reqMarkSet_in_range, answer_motion]
  exact hafter

end

/-- Settles O45: the operands are read back from their bytes, and the marks of the reply are those of the end of the event. -/
theorem laneConfigAndMarkSetWriteTheirValues : Obligations.LaneConfigAndMarkSetWriteTheirValues := by
  refine ⟨fun s seq c1 c0 ht => ⟨fun b p n h => Refuses.of_refuse .badArg (by decide) ht (exec_laneConfig ..)
    (reqLaneConfig_out_of_range h ..), fun l p policy notice hp => ⟨fun hmode => ?_, fun hmode => ?_⟩⟩,
    fun s seq ht => ⟨fun b x h => Refuses.of_refuse .badArg (by decide) ht (exec_markSet ..) (reqMarkSet_out_of_range h),
      exec_markSet_taken ht⟩⟩
  · exact Refuses.of_refuse .wrongMode (by decide) ht (exec_laneConfig ..)
      ((reqLaneConfig_in_range hp ..).trans (if_pos (bne_iff_ne.mpr hmode)))
  · exact yields_of_event ht (exec_laneConfig ..)
      ((reqLaneConfig_in_range hp ..).trans (if_neg (by simpa using hmode))) rfl

/-! ## NOTICE_CLASS and FLOOR_SET (R89, R100) -/

section

variable {b : Byte} {s : State}

theorem exec_noticeClass (seq : Byte) (p : List Byte) (s : State) :
    exec (.noticeClass seq p) s = .next (s.goodFrame seq 0x30 reqNoticeClass p) := rfl

theorem exec_floorSet (seq : Byte) (p : List Byte) (s : State) :
    exec (.floorSet seq p) s = .next (s.goodFrame seq 0x31 reqFloorSet p) := rfl

theorem reqNoticeClass_out_of_range {c e p n : Byte} (h : 9 < c.toNat ∨ 1 < e.toNat ∨ 7 < p.toNat ∨ 1 < n.toNat) :
    reqNoticeClass [c, e, p, n] s = refuse .badArg s := by
  unfold reqNoticeClass
  obtain h | h | h | h := h
  · simp [indexOf_none 10 c h]
  · simp [flagOf_none e h]
  · simp [indexOf_none 8 p h]
  · simp [flagOf_none n h]

theorem reqNoticeClass_in_range (c : Fin 10) (e : Bool) (p : Fin 8) (n : Bool) :
    reqNoticeClass [byteOf c.val, flagByte e, byteOf p.val, flagByte n] s =
      if s.modes.mode != .setup then refuse .wrongMode s
      else okNotices { s.notices with classes := setVec s.notices.classes c ⟨e, p, n⟩ } [] s := by
  simp [reqNoticeClass, indexOf_byteOf 10 (by decide) c, indexOf_byteOf 8 (by decide) p, flagOf_flagByte]

theorem reqFloorSet_out_of_range (h : 7 < b.toNat) : reqFloorSet [b] s = refuse .badArg s := by
  simp [reqFloorSet, indexOf_none 8 b h]

theorem reqFloorSet_in_range (floor : Fin 8) : reqFloorSet [byteOf floor.val] s =
    okNotices { s.notices with floor := floor } [byteOf floor.val, byteOf s.notices.waiting.length] s := by
  simp [reqFloorSet, indexOf_byteOf 8 (by decide) floor]

end

/-- Settles O52: both requests work on the notice unit alone. -/
theorem noticeClassAndFloorAreReplaced : Obligations.NoticeClassAndFloorAreReplaced := by
  refine fun s seq ht => ⟨fun c e p n h => Refuses.of_refuse .badArg (by decide) ht (exec_noticeClass ..)
    (reqNoticeClass_out_of_range h), fun c e p n => ⟨fun hmode => ?_, fun hmode => ?_⟩,
    fun b h => Refuses.of_refuse .badArg (by decide) ht (exec_floorSet ..) (reqFloorSet_out_of_range h),
    fun floor => yields_of_notices ht (exec_floorSet ..) (reqFloorSet_in_range floor)⟩
  · exact Refuses.of_refuse .wrongMode (by decide) ht (exec_noticeClass ..)
      ((reqNoticeClass_in_range ..).trans (if_pos (bne_iff_ne.mpr hmode)))
  · exact yields_of_notices ht (exec_noticeClass ..)
      ((reqNoticeClass_in_range ..).trans (if_neg (by simpa using hmode)))

/-! ## The order of the notices of an event (R96) -/

theorem insertRaised_perm (n : Raised) (ns : List Raised) : (insertRaised n ns).Perm (n :: ns) := by
  induction ns with
  | nil => exact List.Perm.refl _
  | cons m rest ih =>
    rw [insertRaised]
    split
    · exact List.Perm.refl _
    · exact (ih.cons m).trans (List.Perm.swap n m rest)

theorem insertRaised_pairwise (n : Raised) {ns : List Raised} (h : ns.Pairwise fun a b => a.rank ≤ b.rank) :
    (insertRaised n ns).Pairwise fun a b => a.rank ≤ b.rank := by
  induction h with
  | nil => exact List.pairwise_singleton ..
  | @cons m rest hm hrest ih =>
    rw [insertRaised]
    split
    case isTrue hle =>
      exact List.pairwise_cons.mpr ⟨List.forall_mem_cons.mpr ⟨hle, fun x hx => hle.trans (hm x hx)⟩,
        List.pairwise_cons.mpr ⟨hm, hrest⟩⟩
    case isFalse hle =>
      refine List.pairwise_cons.mpr ⟨fun x hx => ?_, ih⟩
      obtain rfl | hx := List.mem_cons.mp ((insertRaised_perm n rest).mem_iff.mp hx)
      · exact Nat.le_of_not_le hle
      · exact hm x hx

theorem sortRaised_perm (ns : List Raised) : (sortRaised ns).Perm ns := by
  induction ns with
  | nil => exact List.Perm.refl _
  | cons n rest ih => exact (insertRaised_perm n _).trans (ih.cons n)

theorem sortRaised_pairwise (ns : List Raised) : (sortRaised ns).Pairwise fun a b => a.rank ≤ b.rank := by
  induction ns with
  | nil => exact List.Pairwise.nil
  | cons n rest ih => exact insertRaised_pairwise n ih

section

variable {n : Raised}

theorem rank_of_block (h : n.cls ∈ [.halt, .link, .drive, .watch]) : n.rank = 0 := by
  simp only [List.mem_cons, List.not_mem_nil, or_false] at h
  obtain h | h | h | h := h <;> simp [Raised.rank, h]

theorem rank_of_actuator (h : n.cls ∈ [.actFault, .jogDone]) : n.rank = 100 + n.source.getD 0 := by
  simp only [List.mem_cons, List.not_mem_nil, or_false] at h
  obtain h | h := h <;> simp [Raised.rank, h]

theorem rank_of_lane (h : n.cls ∈ [.stepDone, .cycle, .laneEmpty, .laneFault]) :
    200 + 10 * n.source.getD 0 ≤ n.rank ∧ n.rank ≤ 203 + 10 * n.source.getD 0 := by
  simp only [List.mem_cons, List.not_mem_nil, or_false] at h
  obtain h | h | h | h := h <;> simp [Raised.rank, h]

theorem rank_pos (h : n.cls ∉ [.halt, .link, .drive, .watch]) : 0 < n.rank := by
  unfold Raised.rank
  cases hc : n.cls <;> simp [hc] at h ⊢

end

/-- Settles O51: the notices are sorted by insertion, and every class has its place in the ranks. -/
theorem theNoticesOfAnEventAreTakenInOrder : Obligations.TheNoticesOfAnEventAreTakenInOrder := by
  refine ⟨fun now u ns => ⟨sortRaised ns, rfl, sortRaised_perm ns, sortRaised_pairwise ns⟩, fun n m =>
    ⟨fun hn hm => ?_, fun hn hm hlt => ?_, fun hn hm hlt => ?_, fun hn hm hlt => ?_, fun heq hc => ?_⟩⟩
  · exact (rank_of_block hn).symm ▸ rank_pos hm
  · have := rank_of_actuator hn
    have := rank_of_lane hm
    omega
  · have := rank_of_actuator hn
    have := rank_of_actuator hm
    omega
  · have := rank_of_lane hn
    have := rank_of_lane hm
    omega
  · obtain ⟨hn, hm⟩ | ⟨hn, hm⟩ | ⟨hn, hm⟩ := hc <;> simp [Raised.rank, hn, hm, heq]

end Sys2Proof.Proofs.SettingsAndOrder
end

section
/-! PROOFS of the family other: JOG (R9 to R15, R20, R31, R32). -/

namespace Sys2Proof.Proofs.Jog

open Sys2Proof.Machine Sys2Proof.Safety Sys2Proof.Proofs.LaneRequests Sys2Proof.Proofs.ActuatorLaws
open Sys2Proof.Proofs.OperatingModes Sys2Proof.Proofs.MessageReference Sys2Proof.Proofs.HaltOfThePart

/-! ## Guards (R30) -/

theorem guardHolds_iff (m : Motion) (g : Guard) : m.guardHolds g = true ↔ GuardMet m g := by
  simp [Motion.guardHolds, GuardMet, and_assoc]

theorem guardsHold_iff (m : Motion) (a : ActIx) : m.guardsHold a = true ↔ ∀ g ∈ (m.act a).cfg.guards, GuardMet m g := by
  simp [Motion.guardsHold, guardHolds_iff]

/-! ## The tests of the request, in their order (R31) -/

theorem takesMove_iff (t : MoveTarget) (x : Actuator) :
    x.takesMove t = true ↔ x.managed = true ∧ ¬ (x.cfg.kind = .single ∧ t = .release) := by
  simp [Actuator.takesMove, Classical.or_iff_not_imp_left, imp_not_comm]

section

variable {s : State} {a : ActIx} {target : MoveTarget} {force : Bool}

theorem exec_jog (seq : Byte) (p : List Byte) (s : State) : exec (.jog seq p) s = .next (s.goodFrame seq 0x12 reqJog p) := rfl

theorem reqJog_out_of_range {b t f : Byte} (h : 15 < b.toNat ∨ 2 < t.toNat ∨ 1 < f.toNat) :
    reqJog [b, t, f] s = refuse .badArg s := by
  unfold reqJog
  obtain h | h | h := h
  · simp [indexOf_none 16 b h]
  · simp [moveTarget_ofCode_none t h]
  · simp [flagOf_none f h]

/-- What a JOG in range asks for. -/
theorem reqJog_eq : reqJog [byteOf a.val, targetByte target, flagByte force] s =
    if !(s.motion.act a).takesMove target then refuse .badArg s
    else if s.modes.mode != .setup then refuse .wrongMode s
    else if (s.motion.act a).state == .faulted then refuse .wrongState s
    else if (s.motion.act a).owner != .none || (s.motion.act a).state != .rest then refuse .busy s
    else if !force && !s.motion.guardsHold a then refuse .guard s
    else okWith { s := s, e := s.event.act s.env a fun v y => y.startMove v .jog target } [] := by
  simp [reqJog, indexOf_byteOf 16 (by decide) a, moveTarget_ofCode_byte, flagOf_flagByte]

variable (htakes : (s.motion.act a).takesMove target = true)

theorem reqJog_badArg (h : (s.motion.act a).managed = false ∨ ((s.motion.act a).cfg.kind = .single ∧ target = .release)) :
    reqJog [byteOf a.val, targetByte target, flagByte force] s = refuse .badArg s := by
  refine reqJog_eq.trans (if_pos ?_)
  rw [Bool.not_eq_true', ← Bool.not_eq_true, takesMove_iff]
  rintro ⟨hm, hr⟩
  exact h.elim (fun hf => absurd (hf.symm.trans hm) (by decide)) hr

include htakes

theorem reqJog_wrongMode (hmode : s.modes.mode ≠ .setup) :
    reqJog [byteOf a.val, targetByte target, flagByte force] s = refuse .wrongMode s := by
  rw [reqJog_eq]
  simp [htakes, hmode]

theorem reqJog_wrongState (hmode : s.modes.mode = .setup) (hf : (s.motion.act a).state = .faulted) :
    reqJog [byteOf a.val, targetByte target, flagByte force] s = refuse .wrongState s := by
  rw [reqJog_eq]
  simp [htakes, hmode, hf]

theorem reqJog_busy (hmode : s.modes.mode = .setup) (hf : (s.motion.act a).state ≠ .faulted)
    (h : (s.motion.act a).owner ≠ .none ∨ (s.motion.act a).state ≠ .rest) :
    reqJog [byteOf a.val, targetByte target, flagByte force] s = refuse .busy s := by
  rw [reqJog_eq]
  simp [htakes, hmode, hf, h]

theorem reqJog_guard (hmode : s.modes.mode = .setup) (ho : (s.motion.act a).owner = .none)
    (hr : (s.motion.act a).state = .rest) (hg : ¬ ∀ g ∈ (s.motion.act a).cfg.guards, GuardMet s.motion g) :
    reqJog [byteOf a.val, targetByte target, flagByte false] s = refuse .guard s := by
  rw [← guardsHold_iff, Bool.not_eq_true] at hg
  rw [reqJog_eq]
  simp [htakes, hmode, ho, hr, hg]

theorem reqJog_ok (hmode : s.modes.mode = .setup) (ho : (s.motion.act a).owner = .none)
    (hr : (s.motion.act a).state = .rest) (hg : force = true ∨ ∀ g ∈ (s.motion.act a).cfg.guards, GuardMet s.motion g) :
    reqJog [byteOf a.val, targetByte target, flagByte force] s =
      okWith { s := s, e := s.event.act s.env a fun v y => y.startMove v .jog target } [] := by
  rw [← guardsHold_iff] at hg
  rw [reqJog_eq]
  obtain hg | hg := hg <;> simp [htakes, hmode, ho, hr, hg]

end

/-! ## The start of the move (R9 to R15, R20) -/

section

variable {s : State} {seq : Byte} {a : ActIx} {target : MoveTarget} {force : Bool}

/-- The start of a jog, on the actuator before it. -/
def jogOut (s : State) (a : ActIx) (target : MoveTarget) : ActOut :=
  (s.motion.act a).startMove (s.env.view a) .jog target

theorem jogOut_begun : Begun .jog (jogOut s a target) := startMove_begun ..

/-- A jog changes its actuator alone, and raises what the actuator reports. -/
theorem act_startMove_jog (e : Event) (v : Env) : e.act v a (fun v y => y.startMove v .jog target) =
    { m := e.m.setAct a ((e.m.act a).startMove (v.view a) .jog target).act,
      raised := e.raised ++ ownNotices a ((e.m.act a).startMove (v.view a) .jog target), started := e.started } := by
  refine act_alone v a _ e fun l hl => ?_
  have hbegun : Begun .jog ((e.m.act a).startMove (v.view a) .jog target) := startMove_begun ..
  cases hreport : ((e.m.act a).startMove (v.view a) .jog target).report <;> have h := hbegun.report <;>
    rw [hreport] at h hl <;> cases h <;> cases hl

theorem jog_yields (ht : Takes s seq) (htakes : (s.motion.act a).takesMove target = true) (hmode : s.modes.mode = .setup)
    (ho : (s.motion.act a).owner = .none) (hr : (s.motion.act a).state = .rest)
    (hg : force = true ∨ ∀ g ∈ (s.motion.act a).cfg.guards, GuardMet s.motion g) :
    Yields (.jog seq [byteOf a.val, targetByte target, flagByte force]) s
      { answering s seq 0x12 .ok [] with motion := s.motion.setAct a (jogOut s a target).act }
      (ownNotices a (jogOut s a target)) := by
  have hreq := reqJog_ok (s := received s) htakes hmode ho hr hg
  rw [act_startMove_jog] at hreq
  exact yields_of_event ht (exec_jog ..) hreq rfl

/-- What the notices of a jog are, by the result of its move. -/
theorem jog_notices (h : Begun .jog o) :
    (o.report.result = .pending → ownNotices a o = []) ∧
    (o.report.result = .done → ownNotices a o =
      [{ cls := .jogDone, source := some a.val, detail := o.act.position.code, tag := none }]) ∧
    (o.report.result = .failed → ∃ code, o.act.fault = some code ∧ ownNotices a o = [actFaultNotice a code]) ∧
    o.report.result ≠ .stopped := by
  unfold ownNotices
  cases h with
  | fault v c x ho =>
    obtain ⟨hspec, hreport⟩ := faultWith_spec v c x
    simp [hreport, Report.result, hspec.fault]
  | rests _ hreport => simp [hreport, Report.result]
  | moves _ hreport => simp [hreport, Report.result]

end

/-! ## What a jog leaves (R9 to R13) -/

section

variable {s : State} {a : ActIx} {e : End}

theorem jogOut_spec (target : MoveTarget) (hm : (s.motion.act a).managed = true) : MoveBegins (s.env.view a) .jog target
    (s.motion.act a) (jogOut s a target).act (jogOut s a target).report.result := startMove_spec _ _ _ _ hm

theorem takesMove_end (hm : (s.motion.act a).managed = true) (e : End) : (s.motion.act a).takesMove e.asMove = true :=
  (takesMove_iff ..).mpr ⟨hm, fun h => by cases e <;> exact absurd h.2 (by decide)⟩

/-- RELEASE on an actuator of two coils, at rest and unowned (R11). -/
theorem jogOut_release (hm : (s.motion.act a).managed = true) (ho : (s.motion.act a).owner = .none)
    (hr : (s.motion.act a).state = .rest) (hk : (s.motion.act a).cfg.kind ≠ .single)
    (hl : s.latches.get (bankOf a) = false) :
    (jogOut s a .release).act = { s.motion.act a with
      lineA := false, lineB := false, pulse := none, position := .u, supervised := false, target := none
      gapTimer := none, travelTimer := none, settleTimer := none } ∧ (jogOut s a .release).report.result = .done := by
  obtain ⟨hact, hdone⟩ := (jogOut_spec .release hm).2.1 hl rfl
  refine ⟨hact.trans ?_, hdone⟩
  have hdouble : (s.motion.act a).cfg.kind.double = true := by
    unfold Actuator.managed at hm
    cases hkind : (s.motion.act a).cfg.kind <;> simp_all [Kind.managed, Kind.double]
  generalize s.motion.act a = x at *
  obtain ⟨cfg, state, position, t, owner, fault, sup, entry, la, lb, gap, travel, settle, pulse⟩ := x
  dsimp only at ho hr hdouble
  subst ho hr
  simp [coilsUnder, hm, hdouble, ownerKept]

/-- A move to the end at which the actuator rests, supervised (R10). -/
theorem jogOut_held (hm : (s.motion.act a).managed = true) (ho : (s.motion.act a).owner = .none)
    (hl : s.latches.get (bankOf a) = false) (hr : (s.motion.act a).state = .rest)
    (hp : (s.motion.act a).position = e.position) (hs : (s.motion.act a).supervised = true) :
    (jogOut s a e.asMove).act = heldAt e (s.motion.act a) ∧ (jogOut s a e.asMove).report.result = .done := by
  obtain ⟨hact, hdone⟩ := ((jogOut_spec e.asMove hm).2.2 e hl rfl).1 ⟨hr, hp, hs⟩
  refine ⟨hact.trans ?_, hdone⟩
  have howner : (heldAt e (s.motion.act a)).owner = .none := by
    obtain ⟨_, _, _, hheld⟩ := holdAt_fields e (s.motion.act a)
    rw [← holdAt_eq, hheld]
    exact ho
  generalize heldAt e (s.motion.act a) = y at *
  obtain ⟨⟩ := y
  subst howner
  rfl

/-- The holding pattern touches the two lines and the pulse alone. -/
theorem heldAt_fields (e : End) (x : Actuator) : heldAt e x =
    { x with lineA := (heldAt e x).lineA, lineB := (heldAt e x).lineB, pulse := (heldAt e x).pulse } := by
  obtain ⟨la, lb, p, h⟩ := holdAt_fields e x
  rw [← holdAt_eq, h]

theorem jogOut_runs (hm : (s.motion.act a).managed = true) (hl : s.latches.get (bankOf a) = false)
    (hat : ¬ ((s.motion.act a).position = e.position ∧ (s.motion.act a).supervised = true)) :
    RunsToward (s.env.view a) e { s.motion.act a with
      owner := .jog, supervised := false, gapTimer := none, travelTimer := none, settleTimer := none }
      (jogOut s a e.asMove).act (jogOut s a e.asMove).report.result :=
  ((jogOut_spec e.asMove hm).2.2 e hl rfl).2 fun h => hat h.2

/-- A move away from an end whose coil is on, with no pulse running: GAP (R12). -/
theorem jogOut_gap (hm : (s.motion.act a).managed = true) (hl : s.latches.get (bankOf a) = false)
    (hat : ¬ ((s.motion.act a).position = e.position ∧ (s.motion.act a).supervised = true))
    (hk : (s.motion.act a).cfg.kind = .doubleHeld) (hopp : (s.motion.act a).coil e.opposite = true)
    (hcoil : (s.motion.act a).coil e = false) (hpulse : (s.motion.act a).pulse = none)
    (hc : ¬ conflicting (s.env.view a) (s.motion.act a)) (hgap : (s.motion.act a).cfg.crossoverGap ≠ 0) :
    (jogOut s a e.asMove).act = { s.motion.act a with
      state := .gap, target := some e, owner := .jog, supervised := false, entryTime := s.time
      lineA := false, lineB := false
      gapTimer := some (s.motion.act a).cfg.crossoverGap, travelTimer := none, settleTimer := none } ∧
      (jogOut s a e.asMove).report.result = .pending := by
  obtain ⟨hact, hpending⟩ := ((jogOut_runs hm hl hat).1 (.inl ⟨hk, hopp⟩)).2.1 hc hgap
  refine ⟨hact.trans ?_, hpending⟩
  cases e <;> simp only [Actuator.coil] at hcoil <;> simp [inGap, coilsUnder, hpulse, hcoil, Env.view, State.env]

/-- A move whose other coil is off: TRAVEL (R13). -/
theorem jogOut_travel (hm : (s.motion.act a).managed = true) (hl : s.latches.get (bankOf a) = false)
    (hat : ¬ ((s.motion.act a).position = e.position ∧ (s.motion.act a).supervised = true))
    (hopp : ¬ OppositeOn e (s.motion.act a)) (hc : ¬ conflicting (s.env.view a) (s.motion.act a))
    (hs : ¬ sensed (s.env.view a) e (s.motion.act a)) :
    (jogOut s a e.asMove).act = { travelling s.time e (s.motion.act a) with owner := .jog, supervised := false } ∧
      (jogOut s a e.asMove).report.result = .pending := ((jogOut_runs hm hl hat).2 hopp).2.1 hc hs

theorem not_oppositeOn {x : Actuator} (hheld : x.cfg.kind = .doubleHeld → x.coil e.opposite = false)
    (hpulsed : x.cfg.kind = .doublePulsed → ∀ p, x.pulse = some p → p.coil = e) : ¬ OppositeOn e x := by
  rintro (⟨hk, hon⟩ | ⟨hk, p, hp, hon⟩)
  · exact absurd ((hheld hk).symm.trans hon) (by decide)
  · have := (hpulsed hk p hp).symm.trans hon
    cases e <;> exact absurd this (by decide)

end

/-- Settles O40: the tests in their order, then the start of a move with owner JOG, case by case. -/
theorem jogIsRefusedOrStartsItsMove : Obligations.JogIsRefusedOrStartsItsMove := by
  refine ⟨fun s seq ht => ⟨fun b t f h => Refuses.of_refuse .badArg (by decide) ht (exec_jog ..) (reqJog_out_of_range h),
    fun a target force => ⟨fun h => ?_, fun hm hr => ⟨fun hmode => ?_, fun hmode hf => ?_, fun hmode hf h => ?_,
      fun hmode ho hst hforce hg => ?_⟩⟩⟩, fun s seq a force ht hmode hm ho hst hg => ?_⟩
  · exact Refuses.of_refuse .badArg (by decide) ht (exec_jog ..) (reqJog_badArg h)
  · exact Refuses.of_refuse .wrongMode (by decide) ht (exec_jog ..) (reqJog_wrongMode ((takesMove_iff ..).mpr ⟨hm, hr⟩) hmode)
  · exact Refuses.of_refuse .wrongState (by decide) ht (exec_jog ..)
      (reqJog_wrongState ((takesMove_iff ..).mpr ⟨hm, hr⟩) hmode hf)
  · exact Refuses.of_refuse .busy (by decide) ht (exec_jog ..) (reqJog_busy ((takesMove_iff ..).mpr ⟨hm, hr⟩) hmode hf h)
  · obtain ⟨g, hmem, hnot⟩ := hg
    subst hforce
    exact Refuses.of_refuse .guard (by decide) ht (exec_jog ..)
      (reqJog_guard ((takesMove_iff ..).mpr ⟨hm, hr⟩) hmode ho hst fun h => hnot (h g hmem))
  have hyields : ∀ target, (s.motion.act a).takesMove target = true →
      Yields (.jog seq [byteOf a.val, targetByte target, flagByte force]) s
        { answering s seq 0x12 .ok [] with motion := s.motion.setAct a (jogOut s a target).act }
        (ownNotices a (jogOut s a target)) := fun target htakes => jog_yields ht htakes hmode ho hst hg
  have hself : ∀ x, ({ answering s seq 0x12 .ok [] with motion := s.motion.setAct a x } : State).motion.act a = x :=
    fun x => act_setAct_self ..
  have hnotices : ∀ target, _ := fun target => jog_notices (a := a) (jogOut_begun (s := s) (a := a) (target := target))
  refine ⟨fun target hr hl => ?_, fun hk hl => ?_, fun e hl hp hs => ?_, fun e hl hat hk hopp hcoil hpulse hc hgap => ?_,
    fun e hl hat hheld hpulsed hc hs => ?_, fun target hr => ?_⟩
  · obtain ⟨hfaulted, hfailed⟩ := (jogOut_spec target hm).1 hl
    obtain ⟨code, hcode, hraised⟩ := (hnotices target).2.2.1 hfailed
    obtain rfl : code = .drive := Option.some.inj (hcode.symm.trans hfaulted.fault)
    refine ⟨_, hraised ▸ hyields target ((takesMove_iff ..).mpr ⟨hm, hr⟩), ?_, ?_⟩
    · rw [hself]
    · rw [hself]
      exact hfaulted
  · obtain ⟨hact, hdone⟩ := jogOut_release hm ho hst hk hl
    have hyield := hyields .release ((takesMove_iff ..).mpr ⟨hm, fun h => hk h.1⟩)
    rw [(hnotices .release).2.1 hdone, hact] at hyield
    exact hyield
  · obtain ⟨hact, hdone⟩ := jogOut_held hm ho hl hst hp hs
    have hyield := hyields e.asMove (takesMove_end hm e)
    have hcode : (jogOut s a e.asMove).act.position.code = e.code := by
      rw [hact, heldAt_fields]
      exact (congrArg _ hp).trans (by cases e <;> rfl)
    rw [(hnotices e.asMove).2.1 hdone, hcode, hact] at hyield
    refine ⟨_, hyield, ?_, ?_⟩
    · rw [hself, ← heldAt_fields]
    · rw [hself]
      unfold heldAt
      exact ⟨fun hk => by simp [hk], fun hk => by simp [hk], fun hk => by simp [hk]⟩
  · obtain ⟨hact, hpending⟩ := jogOut_gap hm hl hat hk hopp hcoil hpulse hc hgap
    have hyield := hyields e.asMove (takesMove_end hm e)
    rw [(hnotices e.asMove).1 hpending, hact] at hyield
    exact hyield
  · obtain ⟨hact, hpending⟩ := jogOut_travel hm hl hat (not_oppositeOn hheld hpulsed) hc hs
    have hyield := hyields e.asMove (takesMove_end hm e)
    rw [(hnotices e.asMove).1 hpending, hact] at hyield
    exact hyield
  · obtain ⟨hpending, hdone, hfailed, hstopped⟩ := hnotices target
    refine ⟨_, _, _, hyields target ((takesMove_iff ..).mpr ⟨hm, hr⟩), ?_, ?_, hpending, fun h => ?_, fun h => ?_, hstopped⟩
    · rw [hself]
    · rw [hself]
      exact jogOut_spec target hm
    · rw [hself]
      exact hdone h
    · rw [hself]
      exact hfailed h

end Sys2Proof.Proofs.Jog
end

section
/-! PROOFS of the family other: the transmitter, and attention at the end of an event (R101, R102, R144, R165 to R169). -/

namespace Sys2Proof.Proofs.Transmitter

open Sys2Proof.Machine Sys2Proof.Safety Sys2Proof.Proofs.LaneRequests Sys2Proof.Proofs.Notices
open Sys2Proof.Proofs.OperatingModes Sys2Proof.Proofs.MessageReference Sys2Proof.Proofs.SettingsAndOrder
open Sys2Proof.Proofs.Resets

/-! ## Attention is judged (R101, R102, R168) -/

theorem judge_eq (s : State) : s.judge = { s with
    notices := { s.notices with attn := s.notices.attention }
    link := { s.link with
      attnSlot := if s.notices.attention = true ∧ s.notices.attn = false ∧ s.link.attnSlot = .empty then .waiting
        else s.link.attnSlot } } := by
  simp [State.judge, and_assoc]

theorem take_attn (now : Time) (n : Raised) (u : NoticeUnit) : (u.take now n).attn = u.attn := by
  unfold NoticeUnit.take
  repeat' split
  all_goals rfl

theorem takeAll_attn (now : Time) (ns : List Raised) (u : NoticeUnit) : (u.takeAll now ns).attn = u.attn := by
  unfold NoticeUnit.takeAll
  induction sortRaised ns generalizing u with
  | nil => rfl
  | cons n rest ih => exact (ih _).trans (take_attn now n u)

/-- What the end of an event makes of the attention slot. -/
theorem settle_slot (s : State) (e : Event) : (s.settle e).link.attnSlot =
    if (s.settle e).notices.attn = true ∧ s.notices.attn = false ∧ s.link.attnSlot = .empty then .waiting
    else s.link.attnSlot := by
  unfold State.settle
  rw [judge_eq]
  dsimp only
  rw [takeAll_attn]

/-! ## The next frame begins (R165, R167, R169) -/

section

variable {s : State}

theorem idle_iff (k : Link) : k.idle = true ↔ Silent k := by
  unfold Link.idle Silent
  cases k.attnSlot <;> simp

theorem beginNext_attention {fresh : Bool} (hs : Silent s.link) (hw : s.link.attnSlot = .waiting)
    (hf : fresh = false ∨ s.link.replies = []) : s.beginNext fresh = s.beginAttention := by
  unfold State.beginNext
  rw [if_pos ((idle_iff _).mpr hs), if_pos (beq_iff_eq.mpr hw)]
  exact if_neg (by obtain h | h := hf <;> simp [h])

/-- The free choice of log 9. -/
theorem beginNext_either (hs : Silent s.link) (hw : s.link.attnSlot = .waiting) (hr : s.link.replies ≠ []) :
    s.beginNext true = { s with freeDraws := s.freeDraws + 1 }.beginReply ∨
      s.beginNext true = { s with freeDraws := s.freeDraws + 1 }.beginAttention := by
  unfold State.beginNext
  rw [if_pos ((idle_iff _).mpr hs), if_pos (beq_iff_eq.mpr hw), if_pos (by simpa using hr)]
  dsimp only
  split
  · exact .inl rfl
  · exact .inr rfl

theorem beginNext_reply (fresh : Bool) (hs : Silent s.link) (hw : s.link.attnSlot ≠ .waiting) :
    s.beginNext fresh = if s.link.replies.isEmpty then s else s.beginReply := by
  unfold State.beginNext
  rw [if_pos ((idle_iff _).mpr hs), if_neg (by simpa using hw)]

theorem beginAttention_slot : s.beginAttention.link.attnSlot =
    .sending (frameOf s.link.attnCounter 0x7F (attentionBytes s.notices)) := rfl

theorem beginAttention_begun {u : State} (hs : s.link.replySending = false)
    (hcounter : s.link.attnCounter = u.link.attnCounter) : AttentionBegun u s.beginAttention := by
  refine ⟨?_, congrArg (· + 1) hcounter, hs⟩
  rw [← hcounter]
  exact beginAttention_slot

/-- At the end of an event an idle transmitter begins the next frame. -/
theorem close_nextBegun (b : Body) (hs : Silent b.s.link) : NextBegun b.s b.close := by
  obtain ⟨w, hw⟩ : ∃ w, w = b.s.settle (b.e.arbitrate b.s.env) := ⟨_, rfl⟩
  have hslot : w.link.attnSlot = if w.notices.attn = true ∧ b.s.notices.attn = false ∧ b.s.link.attnSlot = .empty
      then .waiting else b.s.link.attnSlot := hw ▸ settle_slot ..
  have hsending : w.link.replySending = false := hw ▸ hs.1
  have hreplies : w.link.replies = b.s.link.replies := hw ▸ rfl
  have hcounter : w.link.attnCounter = b.s.link.attnCounter := hw ▸ rfl
  have hsilent : Silent w.link := by
    refine ⟨hsending, fun f hf => ?_⟩
    rw [hslot] at hf
    split at hf
    · exact AttnSlot.noConfusion hf
    · exact hs.2 f hf
  have hclose : b.close = w.beginNext (b.s.link.attnSlot == .empty) := hw ▸ rfl
  have hnotices : b.close.notices = w.notices := by
    obtain ⟨_, _, _, _, hframe⟩ := beginNext_frame (b.s.link.attnSlot == .empty) w
    rw [hclose, hframe]
  refine ⟨fun hwait => ?_, fun hempty hrise => ?_, fun hempty hrise => ?_⟩
  · rw [hwait, if_neg (fun h => AttnSlot.noConfusion h.2.2)] at hslot
    rw [hclose, beginNext_attention hsilent hslot (.inl (by rw [hwait]; rfl))]
    exact beginAttention_begun hsending hcounter
  · rw [hnotices] at hrise
    rw [if_neg (fun h => hrise ⟨h.1, h.2.1⟩), hempty] at hslot
    rw [hclose, beginNext_reply _ hsilent (by rw [hslot]; exact AttnSlot.noConfusion), ← hreplies]
    cases hr : w.link.replies with
    | nil => exact ⟨hslot, hcounter, hsending⟩
    | cons f rest => exact ⟨hslot, hcounter, rfl⟩
  · rw [hnotices] at hrise
    rw [if_pos ⟨hrise.1, hrise.2, hempty⟩] at hslot
    by_cases hr : b.s.link.replies = []
    · rw [hclose, beginNext_attention hsilent hslot (.inr (hreplies.trans hr))]
      exact .inl (beginAttention_begun hsending hcounter)
    · have hfresh : (b.s.link.attnSlot == .empty) = true := beq_iff_eq.mpr hempty
      rw [hclose, hfresh]
      obtain h | h := beginNext_either hsilent hslot (fun h => hr (hreplies.symm.trans h))
      · rw [h]
        exact .inr ⟨hr, rfl, hslot, hcounter⟩
      · rw [h]
        exact .inl (beginAttention_begun hsending hcounter)

theorem body_ends (hs : Silent s.link) : After s [] s.body.close ∧ NextBegun s s.body.close :=
  ⟨After.of_close s.body rfl, close_nextBegun s.body hs⟩

/-! ## The transmitter's own events -/

theorem exec_txFrameEnd (hop : Operating s) : exec .txFrameEnd s = .next s.frameSent :=
  congrArg Host.Outcome.next (live_operating _ hop)

theorem exec_txFrameBegin (hop : Operating s) :
    exec .txFrameBegin s = .next (if s.link.mayBegin then s.body.close else s) :=
  congrArg Host.Outcome.next (live_operating _ hop)

theorem frameSent_reply {f : List Byte} {rest : List (List Byte)} (hsend : s.link.replySending = true)
    (hr : s.link.replies = f :: rest) (h : s.modes.pendingRestart = none ∨ rest ≠ []) : s.frameSent =
      ({ s with link := { s.link with replies := rest, replySending := false } } : State).body.close := by
  have hsent : s.replySent = { s with link := { s.link with replies := rest, replySending := false } } := by
    unfold State.replySent
    rw [hr]
    rfl
  unfold State.frameSent State.restartReplySending
  rw [if_pos hsend, hsent, hr]
  obtain h | h := h
  · rw [h]
  · have hmore : (s.link.replySending && (f :: rest).length == 1) = false := by simpa [hsend] using h
    rw [hmore]
    cases s.modes.pendingRestart <;> rfl

theorem frameSent_restart {level : RestartLevel} (hsend : s.link.replySending = true) (hlen : s.link.replies.length = 1)
    (h : s.modes.pendingRestart = some level) : s.frameSent = s.restartNow level s.straps := by
  unfold State.frameSent
  rw [if_pos hsend, h]
  exact if_pos (restartReplySending_of hsend hlen)

theorem exec_restart0TakesEffect {straps : BitVec 2} (hop : Operating s) (hsend : s.link.replySending = true)
    (hlen : s.link.replies.length = 1) (hp : s.modes.pendingRestart = some .level0) :
    exec (.restart0TakesEffect straps) s = .next (s.restartNow .level0 straps) := by
  show execRestart0TakesEffect straps s = _
  unfold execRestart0TakesEffect
  rw [live_operating _ hop, hp, restartReplySending_of hsend hlen]
  rfl

theorem exec_restart1TakesEffect (hop : Operating s) (hsend : s.link.replySending = true)
    (hlen : s.link.replies.length = 1) (hp : s.modes.pendingRestart = some .level1) :
    exec .restart1TakesEffect s = .next (s.restartNow .level1 s.straps) := by
  show execRestart1TakesEffect s = _
  unfold execRestart1TakesEffect
  rw [live_operating _ hop, hp, restartReplySending_of hsend hlen]
  rfl

theorem frameSent_attention {g : List Byte} (hsend : s.link.replySending = false) (hg : s.link.attnSlot = .sending g) :
    s.frameSent = ({ s with link := { s.link with attnSlot := .empty } } : State).body.close := by
  unfold State.frameSent
  rw [if_neg (by simp [hsend]), if_neg fun h => ((idle_iff _).mp h).2 g hg]
  rfl

theorem frameSent_silent (hs : Silent s.link) : s.frameSent = s := by
  unfold State.frameSent
  rw [if_neg (by simp [hs.1]), if_pos ((idle_iff _).mpr hs)]

end

/-- Settles O31: which frame an idle transmitter begins, and what the end of a frame frees. -/
theorem theTransmitterSendsOneFrameAtATime : Obligations.TheTransmitterSendsOneFrameAtATime := by
  refine fun s hop => ⟨fun f rest hsend hr hp hg => ?_, fun g hsend hg => ?_, fun hs hnext => ?_, fun hs hslot hr => ?_,
    fun hs => ?_, fun hsend hlen => ⟨fun hp => ?_, fun hp => ?_⟩⟩
  · exact ⟨_, (exec_txFrameEnd hop).trans (congrArg _ (frameSent_reply hsend hr hp)), body_ends ⟨rfl, hg⟩⟩
  · exact ⟨_, (exec_txFrameEnd hop).trans (congrArg _ (frameSent_attention hsend hg)), body_ends ⟨hsend, nofun⟩⟩
  · refine ⟨_, (exec_txFrameBegin hop).trans (congrArg _ (if_pos ?_)), body_ends hs⟩
    simpa [Link.mayBegin, (idle_iff _).mpr hs] using hnext
  · exact (exec_txFrameBegin hop).trans (congrArg _ (if_neg (by simp [Link.mayBegin, hslot, hr])))
  · rw [exec_txFrameEnd hop, frameSent_silent hs]
  · rw [exec_txFrameEnd hop, frameSent_restart hsend hlen hp, exec_restart0TakesEffect hop hsend hlen hp]
  · rw [exec_txFrameEnd hop, frameSent_restart hsend hlen hp, exec_restart1TakesEffect hop hsend hlen hp]

/-! ## A reply and an attention frame of one event (log 9) -/

/-- A request answered OK at whose end attention rises over an empty attention slot and an idle transmitter: its reply and the
attention frame are queued, and either begins. -/
theorem answer_either (seq kind : Byte) {r : Served} (hok : r.status = .ok) (hs : Silent r.body.s.link)
    (hslot : r.body.s.link.attnSlot = .empty) (hr : r.body.s.link.replies = []) (hbefore : r.body.s.notices.attn = false)
    (hrise : (r.body.s.settle (r.body.e.arbitrate r.body.s.env)).notices.attn = true) :
    ∃ t, t = r.answer seq kind ∧ t.notices.attn = true ∧ t.link.replies.length = 1 ∧
      ((t.link.replySending = true ∧ t.link.attnSlot = .waiting ∧ t.link.attnCounter = r.body.s.link.attnCounter) ∨
        (t.link.replySending = false ∧ t.link.attnCounter = r.body.s.link.attnCounter + 1 ∧
          t.link.attnSlot = .sending (frameOf r.body.s.link.attnCounter 0x7F (attentionBytes t.notices)))) := by
  obtain ⟨w, hw⟩ : ∃ w, w = r.body.s.settle (r.body.e.arbitrate r.body.s.env) := ⟨_, rfl⟩
  have hwait := settle_slot r.body.s (r.body.e.arbitrate r.body.s.env)
  rw [if_pos ⟨hrise, hbefore, hslot⟩, ← hw] at hwait
  have hended : r.ended = w := (if_pos hok).trans hw.symm
  have hreplies : w.link.replies = [] := hw ▸ hr
  have hsending : w.link.replySending = false := hw ▸ hs.1
  have hcounter : w.link.attnCounter = r.body.s.link.attnCounter := hw ▸ rfl
  have hattn : w.notices.attn = true := hw ▸ hrise
  have hfresh : (r.body.s.link.attnSlot == .empty) = true := beq_iff_eq.mpr hslot
  obtain ⟨x, hx⟩ : ∃ x : State, x = { w with link := { w.link with
      seqRecord := some { seq := seq, reply := r.frame seq kind }, replies := w.link.replies ++ [r.frame seq kind] } } :=
    ⟨_, rfl⟩
  have hanswer : r.answer seq kind = x.beginNext true := by
    unfold Served.answer State.queueReply
    rw [hended, hx, hfresh]
  have hsilent : Silent x.link := hx ▸ ⟨hsending, fun f hf => AttnSlot.noConfusion (hwait.symm.trans hf)⟩
  have hslotx : x.link.attnSlot = .waiting := hx ▸ hwait
  have hone : x.link.replies = [r.frame seq kind] := by
    rw [hx, hreplies]
    rfl
  have hcounterx : x.link.attnCounter = r.body.s.link.attnCounter := hx ▸ hcounter
  have hattnx : x.notices.attn = true := hx ▸ hattn
  refine ⟨_, rfl, ?_⟩
  rw [hanswer, ← hcounterx]
  obtain h | h := beginNext_either hsilent hslotx (by simp [hone])
  · rw [h]
    exact ⟨hattnx, congrArg List.length hone, .inl ⟨rfl, hslotx, rfl⟩⟩
  · rw [h]
    exact ⟨hattnx, congrArg List.length hone, .inr ⟨hsilent.1, rfl, beginAttention_slot⟩⟩

/-- Settles O32: the judgement of attention, and the free choice between the two frames it may leave waiting. -/
theorem aReplyAndAnAttentionFrameMayBeginInEitherOrder : Obligations.AReplyAndAnAttentionFrameMayBeginInEitherOrder := by
  refine ⟨judge_eq, fun s seq b ht hcalm hs hslot hr hattn floor hb hattention => ?_⟩
  subst hb
  obtain ⟨u, hu⟩ : ∃ u : State, u = { received s with notices := { s.notices with floor := floor } } := ⟨_, rfl⟩
  have hreq := (reqFloorSet_in_range (s := received s) floor).trans
    (show _ = okWith u.body [byteOf floor.val, byteOf s.notices.waiting.length] from hu ▸ rfl)
  have hevent : u.body.e.arbitrate u.env = { m := u.motion, raised := [], started := [] } :=
    endOf_calm u [] (hu ▸ hcalm)
  have hrise : (u.settle (u.body.e.arbitrate u.env)).notices.attn = true := by
    rw [hevent, hu]
    exact hattention
  obtain ⟨t, ht', hends⟩ := answer_either seq 0x31
    (r := okWith u.body [byteOf floor.val, byteOf s.notices.waiting.length]) rfl
    (show Silent u.link from hu ▸ hs) (show u.link.attnSlot = _ from hu ▸ hslot) (show u.link.replies = _ from hu ▸ hr)
    (show u.notices.attn = _ from hu ▸ hattn) hrise
  have hcounter : (okWith u.body [byteOf floor.val, byteOf s.notices.waiting.length]).body.s.link.attnCounter =
      s.link.attnCounter := hu ▸ rfl
  rw [hcounter] at hends
  exact ⟨t, (exec_floorSet ..).trans (congrArg _ ((goodFrame_taken ht ..).trans ((congrArg _ hreq).trans ht'.symm))), hends⟩

end Sys2Proof.Proofs.Transmitter
end

section
/-! PROOFS of the family other: the start arbiter (R70 to R78). -/

namespace Sys2Proof.Proofs.Arbiter

open Sys2Proof.Machine Sys2Proof.Safety Sys2Proof.Proofs.LaneRequests Sys2Proof.Proofs.LaneResults
open Sys2Proof.Proofs.StepResults Sys2Proof.Proofs.QueueAndPool Sys2Proof.Proofs.ActuatorLaws Sys2Proof.Proofs.Jog
open Sys2Proof.Proofs.HaltOfThePart Sys2Proof.Proofs.SensorChanges

/-! ## The start test (R71 to R75) -/

section

variable {v : Env} {e : Event} {m : Motion}

theorem condHolds_iff (m : Motion) (v : Env) (c : StartCond) : m.condHolds v c = true ↔ CondMet m v c := by
  cases c <;> simp [Motion.condHolds, CondMet, Env.level]

theorem startTest_iff (h : Machine.Step) : m.startTest v h = true ↔
    (∀ mv ∈ h.moves, (m.act mv.act).owner = .none ∧ (m.act mv.act).state ≠ .faulted ∧
      ∀ g ∈ (m.act mv.act).cfg.guards, GuardMet m g) ∧ CondMet m v h.cond := by
  simp [Motion.startTest, Motion.actFree, condHolds_iff, guardsHold_iff, and_assoc]

theorem sharesActuator_iff (h g : Machine.Step) :
    sharesActuator h g = false ↔ ∀ mv ∈ h.moves, ∀ mw ∈ g.moves, mv.act ≠ mw.act := by
  simp [sharesActuator]

theorem sharesMark_iff (h g : Machine.Step) : sharesMark h g = false ↔ ∀ k, h.cond = .onMark k → g.cond ≠ .onMark k := by
  unfold sharesMark
  split
  · next k j hk hj =>
    rw [hk, hj, beq_eq_false_iff_ne]
    exact ⟨fun hne i hi hi' => hne ((StartCond.onMark.inj hi).trans (StartCond.onMark.inj hi').symm),
      fun h he => h k rfl (he ▸ rfl)⟩
  · next hno => exact iff_of_true rfl fun k hk hj => hno k k hk hj

/-- An older entry does not hold back a step (R75). -/
theorem claims_iff (o : QEntry) (h : Machine.Step) : m.claims o h = false ↔
    ∀ h' rest', (m.lane o.lane).steps = h' :: rest' →
      (∀ mv ∈ h'.moves, ∀ mw ∈ h.moves, mv.act ≠ mw.act) ∧ ∀ k, h'.cond = .onMark k → h.cond ≠ .onMark k := by
  unfold Motion.claims Motion.headOf Lane.head?
  cases (m.lane o.lane).steps with
  | nil => simp
  | cons g rest => simp [sharesActuator_iff, sharesMark_iff]

theorem ready_iff (older : List QEntry) (q : QEntry) : e.ready v older q = true ↔ MayStart v e older q := by
  unfold Event.ready Motion.headOf Lane.head? MayStart
  cases (e.m.lane q.lane).steps with
  | nil => simp
  | cons h rest =>
    simp only [List.head?_cons, Bool.and_eq_true, startTest_iff, List.all_eq_true, Bool.not_eq_true', claims_iff,
      List.contains_eq_mem, decide_eq_false_iff_not, List.cons.injEq]
    constructor
    · rintro ⟨⟨hnew, hfree, hcond⟩, hclaims⟩
      exact ⟨h, rest, ⟨rfl, rfl⟩, hnew, hfree, hcond, hclaims⟩
    · rintro ⟨_, _, ⟨rfl, rfl⟩, hnew, hfree, hcond, hclaims⟩
      exact ⟨⟨hnew, hfree, hcond⟩, hclaims⟩

/-! ## The oldest entry that may start (R76) -/

/-- Every entry of a queue behind the entries before it: of a queue with one more in front. -/
theorem forall_split_cons {P : List QEntry → QEntry → Prop} (x : QEntry) (qs : List QEntry) :
    (∀ pre q post, x :: qs = pre ++ q :: post → P pre q) ↔
      P [] x ∧ ∀ pre q post, qs = pre ++ q :: post → P (x :: pre) q := by
  refine ⟨fun h => ⟨h [] x qs rfl, fun pre q post hq => h (x :: pre) q post (congrArg _ hq)⟩, fun ⟨hx, h⟩ pre q post hq => ?_⟩
  cases pre with
  | nil =>
    obtain ⟨rfl, rfl⟩ := List.cons.inj hq
    exact hx
  | cons y pre =>
    obtain ⟨rfl, hqs⟩ := List.cons.inj hq
    exact h pre q post hqs

theorem findReady_eq_none (qs : List QEntry) : ∀ older, e.findReady v older qs = none ↔
    ∀ pre q post, qs = pre ++ q :: post → ¬ MayStart v e (older ++ pre) q := by
  induction qs with
  | nil => simp [Event.findReady]
  | cons x qs ih =>
    intro older
    rw [forall_split_cons (P := fun pre q => ¬ MayStart v e (older ++ pre) q), List.append_nil, ← ready_iff]
    unfold Event.findReady
    by_cases hx : e.ready v older x = true
    · simp [hx]
    · simp [hx, ih]

theorem findReady_eq_some {l : LaneIx} (qs : List QEntry) : ∀ older, e.findReady v older qs = some l ↔
    ∃ pre q post, qs = pre ++ q :: post ∧ q.lane = l ∧ MayStart v e (older ++ pre) q ∧
      ∀ pre' q' post', pre = pre' ++ q' :: post' → ¬ MayStart v e (older ++ pre') q' := by
  induction qs with
  | nil => simp [Event.findReady]
  | cons x qs ih =>
    intro older
    unfold Event.findReady
    by_cases hx : e.ready v older x = true
    case pos =>
      rw [if_pos hx]
      rw [ready_iff] at hx
      constructor
      · intro h
        exact ⟨[], x, qs, rfl, Option.some.inj h, by simpa using hx, fun pre' _ _ hnil => by simp at hnil⟩
      · rintro ⟨pre, q, post, hq, rfl, _, hfirst⟩
        cases pre with
        | nil => rw [(List.cons.inj hq).1]
        | cons y pre =>
          obtain ⟨rfl, _⟩ := List.cons.inj hq
          exact absurd (by simpa using hx) (hfirst [] x pre rfl)
    case neg =>
      rw [if_neg hx, ih]
      rw [ready_iff] at hx
      constructor
      · rintro ⟨pre, q, post, rfl, hl, hmay, hfirst⟩
        refine ⟨x :: pre, q, post, rfl, hl, by simpa using hmay, ?_⟩
        rw [forall_split_cons (P := fun pre q => ¬ MayStart v e (older ++ pre) q)]
        exact ⟨by simpa using hx, by simpa using hfirst⟩
      · rintro ⟨pre, q, post, hq, hl, hmay, hfirst⟩
        cases pre with
        | nil =>
          obtain ⟨rfl, _⟩ := List.cons.inj hq
          exact absurd (by simpa using hmay) hx
        | cons y pre =>
          obtain ⟨rfl, rfl⟩ := List.cons.inj hq
          rw [forall_split_cons (P := fun pre q => ¬ MayStart v e (older ++ pre) q)] at hfirst
          exact ⟨pre, q, post, rfl, hl, by simpa using hmay, by simpa using hfirst.2⟩

end

/-! ## What the start of a step leaves alone -/

/-- From `e` to `e'` lane `l` alone has changed, its head naming the same actuators, and no entry has come or gone. -/
structure StartFrame (l : LaneIx) (e e' : Event) : Prop where
  lanes : ∀ j, j ≠ l → e'.m.lane j = e.m.lane j
  queue : e'.m.queue = e.m.queue
  started : e'.started = e.started
  head : ∀ h rest, (e.m.lane l).steps = h :: rest → ∃ g, (e'.m.lane l).steps = g :: rest ∧ g.moves = h.moves ∧
    g.results.map (·.1) = h.results.map (·.1)

theorem StartFrame.refl (l : LaneIx) (e : Event) : StartFrame l e e :=
  ⟨fun _ _ => rfl, rfl, rfl, fun h _ hs => ⟨h, hs, rfl, rfl⟩⟩

theorem StartFrame.trans {l : LaneIx} {e f g : Event} (hef : StartFrame l e f) (hfg : StartFrame l f g) :
    StartFrame l e g := by
  refine ⟨fun j hj => (hfg.lanes j hj).trans (hef.lanes j hj), hfg.queue.trans hef.queue, hfg.started.trans hef.started,
    fun h rest hs => ?_⟩
  obtain ⟨k, hk, hmoves, hacts⟩ := hef.head h rest hs
  obtain ⟨k', hk', hmoves', hacts'⟩ := hfg.head k rest hk
  exact ⟨k', hk', hmoves'.trans hmoves, hacts'.trans hacts⟩

theorem record_acts (a : ActIx) (r : MoveResult) (h : Machine.Step) :
    (Step.record a r h).results.map (·.1) = h.results.map (·.1) := by
  simp only [Step.record, List.map_map]
  refine List.map_congr_left fun p _ => ?_
  by_cases hp : p.1 = a <;> simp [hp]

theorem record_startFrame (l : LaneIx) (a : ActIx) (r : MoveResult) (e : Event) : StartFrame l e (e.record l a r) := by
  have hframe := record_frame l a r e
  refine ⟨hframe.lanes, ?_, hframe.started, fun h rest hs => ?_⟩
  · unfold Event.record
    split <;> rfl
  · unfold Event.record
    split
    · refine ⟨Step.record a r h, ?_, rfl, record_acts ..⟩
      rw [m_setLane, lane_setLane_self, mapHead_cons _ _ _ _ hs]
    · exact ⟨h, hs, rfl, rfl⟩

theorem record_act (l : LaneIx) (a b : ActIx) (r : MoveResult) (e : Event) : (e.record l a r).m.act b = e.m.act b := by
  unfold Event.record
  split <;> rfl

/-- A report to a lane changes that lane alone. -/
theorem takeReport_startFrame {l : LaneIx} {r : Report} (h : ReportsTo (.lane l) r) (a : ActIx) (e : Event) :
    StartFrame l e (e.takeReport a r) ∧ ∀ b, (e.takeReport a r).m.act b = e.m.act b := by
  cases h with
  | quiet => exact ⟨.refl l e, fun _ => rfl⟩
  | done => exact ⟨record_startFrame l a .done e, fun b => record_act l a b .done e⟩
  | failed c =>
    have hraise : StartFrame l e (e.raise (actFaultNotice a c)) := ⟨fun _ _ => rfl, rfl, rfl, fun h _ hs => ⟨h, hs, rfl, rfl⟩⟩
    exact ⟨hraise.trans (record_startFrame l a .failed _), fun b => record_act l a b .failed _⟩

/-- The moves of a step that start change its lane and the actuators they name alone. -/
theorem startMoves_startFrame (v : Env) (l : LaneIx) (moves : List Move) : ∀ e : Event,
    StartFrame l e (e.startMoves v l moves) ∧
      ∀ b, (∀ mv ∈ moves, mv.act ≠ b) → (e.startMoves v l moves).m.act b = e.m.act b := by
  induction moves with
  | nil => exact fun e => ⟨.refl l e, fun _ _ => rfl⟩
  | cons mv moves ih =>
    intro e
    obtain ⟨x, hx⟩ : ∃ x, x = (e.m.act mv.act).startMove (v.view mv.act) (.lane l) mv.target := ⟨_, rfl⟩
    have hset : StartFrame l e (e.setAct mv.act x.act) := ⟨fun _ _ => rfl, rfl, rfl, fun h _ hs => ⟨h, hs, rfl, rfl⟩⟩
    have hreports : ReportsTo (.lane l) x.report := hx ▸ (startMove_begun ..).report
    obtain ⟨htaken, hacts⟩ := takeReport_startFrame hreports mv.act (e.setAct mv.act x.act)
    obtain ⟨hrest, hstill⟩ := ih ((e.setAct mv.act x.act).takeReport mv.act x.report)
    have heq : e.startMoves v l (mv :: moves) =
        ((e.setAct mv.act x.act).takeReport mv.act x.report).startMoves v l moves := by
      rw [hx]
      rfl
    rw [heq]
    refine ⟨(hset.trans htaken).trans hrest, fun b hb => ?_⟩
    obtain ⟨hne, hothers⟩ := List.forall_mem_cons.mp hb
    exact ((hstill b hothers).trans (hacts b)).trans (act_setAct_ne _ _ _ _ hne.symm)

/-- A lane that acts on its results leaves alone the actuators that its head does not name. -/
theorem actOnResults_act {l : LaneIx} {e : Event} {h : Machine.Step} {rest : List Machine.Step} {b : ActIx}
    (hs : (e.m.lane l).steps = h :: rest) (hmoves : ∀ mv ∈ h.moves, mv.act ≠ b) (hresults : ∀ p ∈ h.results, p.1 ≠ b)
    (v : Env) : (e.actOnResults v l).m.act b = e.m.act b := by
  obtain heq | ⟨g, grest, _, hg, hcase⟩ := actOnResults_cases v l e
  · rw [heq]
  obtain ⟨rfl, rfl⟩ := List.cons.inj (hs.symm.trans hg)
  obtain ⟨_, hf⟩ | ⟨_, hc⟩ := hcase
  · rw [hf.act, abortedAct_unnamed hmoves hresults, ite_self]
  · exact (hc.act b).trans (if_neg fun ⟨mv, hmv, he⟩ => hmoves mv hmv he)

/-- A lane that acts on its results can queue itself alone. -/
theorem actOnResults_queue (v : Env) (l : LaneIx) (e : Event) :
    ∀ q ∈ (e.actOnResults v l).m.queue, q ∈ e.m.queue ∨ q.lane = l := by
  intro q hq
  obtain heq | ⟨g, grest, _, _, ⟨_, hf⟩ | ⟨_, hc⟩⟩ := actOnResults_cases v l e
  · exact .inl (heq ▸ hq)
  · exact .inl (hf.queue ▸ hq)
  · rw [hc.queue, List.mem_append] at hq
    refine hq.imp id fun hnew => ?_
    split at hnew
    · unfold headEntry at hnew
      obtain ⟨f, _, rfl⟩ := List.mem_map.mp hnew
      rfl
    · exact absurd hnew List.not_mem_nil

/-- What the start of the step `h` of lane `l` leaves alone. -/
structure StartsAlone (l : LaneIx) (h : Machine.Step) (e e' : Event) : Prop where
  lanes : ∀ j, j ≠ l → e'.m.lane j = e.m.lane j
  queue : ∀ q ∈ e'.m.queue, q ∈ e.m.queue ∨ q.lane = l
  started : e'.started = l :: e.started
  act : ∀ b, (∀ mv ∈ h.moves, mv.act ≠ b) → e'.m.act b = e.m.act b

theorem startLane_eq {l : LaneIx} {h : Machine.Step} {rest : List Machine.Step} {e : Event}
    (hs : (e.m.lane l).steps = h :: rest) (v : Env) : e.startLane v l =
      ((((e.leaveQueue l).consumeMark h.cond).beginRun v l h).startMoves v l h.moves).actOnResults v l := by
  unfold Event.startLane
  rw [hs]

theorem startLane_alone {l : LaneIx} {h : Machine.Step} {rest : List Machine.Step} {e : Event}
    (hs : (e.m.lane l).steps = h :: rest) (v : Env) : StartsAlone l h e (e.startLane v l) := by
  obtain ⟨marks, hbegin⟩ := begin_eq v l h e
  obtain ⟨b, hb⟩ : ∃ b, b = ((e.leaveQueue l).consumeMark h.cond).beginRun v l h := ⟨_, rfl⟩
  rw [startLane_eq hs, ← hb]
  rw [← hb] at hbegin
  have hlane : b.m.lane l = begunLane v.time h.moves (e.m.lane l) := by
    rw [hbegin]
    exact lane_setLane_self ..
  have hothers : ∀ j, j ≠ l → b.m.lane j = e.m.lane j := fun j hj => by
    rw [hbegin]
    exact lane_setLane_ne _ _ _ _ hj
  have hqueue : b.m.queue = e.m.queue.filter fun q => q.lane ≠ l := by
    rw [hbegin]
    rfl
  obtain ⟨hframe, hstill⟩ := startMoves_startFrame v l h.moves b
  have hresults := actOnResults_frame v l (b.startMoves v l h.moves)
  refine ⟨fun j hj => ?_, fun q hq => ?_, ?_, fun a ha => ?_⟩
  · exact ((hresults.lanes j hj).trans (hframe.lanes j hj)).trans (hothers j hj)
  · refine (actOnResults_queue v l _ q hq).imp (fun hmem => ?_) id
    rw [hframe.queue, hqueue] at hmem
    exact List.mem_of_mem_filter hmem
  · rw [hresults.started, hframe.started, hbegin]
  · obtain ⟨g, hg, hmoves, hacts⟩ := hframe.head
      (HeartLaws.begunStep v.time h) rest (by rw [hlane, HeartLaws.begunLane_eq hs])
    refine ((actOnResults_act hg (hmoves ▸ ha) (fun p hp he => ?_) v).trans (hstill a ha)).trans (by rw [hbegin]; rfl)
    have hnamed : p.1 ∈ g.results.map (·.1) := List.mem_map_of_mem hp
    rw [hacts, he] at hnamed
    obtain ⟨_, hresult, heq⟩ := List.mem_map.mp hnamed
    obtain ⟨mv, hmv, rfl⟩ := List.mem_map.mp hresult
    exact ha mv hmv heq

/-! ## The starts of one event (R75 to R77) -/

section

variable {v : Env}

/-- A start that the arbiter makes: of a queued lane that has not started in the event, with its actuators free. -/
theorem findReady_starts {e : Event} {l : LaneIx} (hfind : e.findReady v [] e.m.queue = some l) :
    (∃ q ∈ e.m.queue, q.lane = l) ∧ l ∉ e.started ∧ ∃ h rest, (e.m.lane l).steps = h :: rest ∧
      ∀ mv ∈ h.moves, (e.m.act mv.act).owner = .none := by
  obtain ⟨pre, q, post, hq, rfl, ⟨h, rest, hs, hnew, hfree, _⟩, _⟩ := (findReady_eq_some ..).mp hfind
  exact ⟨⟨q, by simp [hq], rfl⟩, hnew, h, rest, hs, fun mv hmv => (hfree mv hmv).1⟩

/-- What every start keeps, the starts of one event keep. -/
theorem startReady_induction {P : Event → Prop}
    (hstart : ∀ e l, P e → e.findReady v [] e.m.queue = some l → P (e.startLane v l)) (n : Nat) :
    ∀ e, P e → P (e.startReady v n) := by
  induction n with
  | zero => exact fun _ h => h
  | succ n ih =>
    intro e h
    unfold Event.startReady
    split
    · exact h
    · next l hfind => exact ih _ (hstart e l h hfind)

theorem arbitrate_induction {P : Event → Prop}
    (hstart : ∀ e l, P e → e.findReady v [] e.m.queue = some l → P (e.startLane v l)) {e : Event} (h : P e) :
    P (e.arbitrate v) := by
  unfold Event.arbitrate
  split
  · exact startReady_induction hstart 4 e h
  · exact h

/-- With every lane started nothing may start (R77). -/
theorem findReady_all_started {e : Event} (hnodup : e.started.Nodup) (hfour : 4 ≤ e.started.length) :
    e.findReady v [] e.m.queue = none := by
  refine (findReady_eq_none ..).mpr fun pre q post _ hmay => ?_
  obtain ⟨h, rest, _, hnew, _⟩ := hmay
  have hmore : (q.lane :: e.started).Nodup := List.nodup_cons.mpr ⟨hnew, hnodup⟩
  have hlanes := hmore.length_le_card
  simp at hlanes
  omega

theorem startReady_none_left (n : Nat) : ∀ e : Event, e.started.Nodup → 4 ≤ n + e.started.length →
    (e.startReady v n).findReady v [] (e.startReady v n).m.queue = none := by
  induction n with
  | zero => exact fun e hnodup hfour => findReady_all_started (e := e) hnodup (by simpa using hfour)
  | succ n ih =>
    intro e hnodup hfour
    unfold Event.startReady
    cases hfind : e.findReady v [] e.m.queue with
    | none => exact hfind
    | some l =>
      obtain ⟨_, hnew, h, rest, hs, _⟩ := findReady_starts hfind
      have hstarted := (startLane_alone hs v).started
      refine ih _ (by rw [hstarted]; exact List.nodup_cons.mpr ⟨hnew, hnodup⟩) ?_
      rw [hstarted, List.length_cons]
      omega

end

/-- Settles O19: of the four starts that an event can make, each takes the oldest entry that may start. -/
theorem theOldestReadyStepStartsAndNoneIsLeft : Obligations.TheOldestReadyStepStartsAndNoneIsLeft := by
  refine ⟨fun v e l => by simpa using findReady_eq_some e.m.queue [], fun v e hmode => arbitrate_not_run v e hmode,
    arbitrate_no_queue, fun v e pre q post hmode hnone hq => ?_⟩
  have hstarts : e.arbitrate v = e.startReady v 4 := if_pos (beq_iff_eq.mpr hmode)
  have hleft := startReady_none_left (v := v) 4 e (hnone ▸ List.nodup_nil) (by simp)
  rw [← hstarts] at hleft
  exact (findReady_eq_none ..).mp hleft pre q post hq

/-- Settles O20: what every single start leaves alone, the arbiter leaves alone. -/
theorem theArbiterLeavesOthersAlone : Obligations.TheArbiterLeavesOthersAlone := by
  refine ⟨fun v e a howner => ?_, fun v e l hl => ?_, fun v e hnone => ?_⟩
  · refine arbitrate_induction (P := fun e' => e'.m.act a = e.m.act a) (fun e' l heq hfind => ?_) rfl
    obtain ⟨_, _, h, rest, hs, hfree⟩ := findReady_starts hfind
    refine ((startLane_alone hs v).act a fun mv hmv he => ?_).trans heq
    exact howner (by rw [← heq, ← he]; exact hfree mv hmv)
  · refine (arbitrate_induction (P := fun e' => e'.m.lane l = e.m.lane l ∧ ∀ q ∈ e'.m.queue, q.lane ≠ l)
      (fun e' j h hfind => ?_) ⟨rfl, hl⟩).1
    obtain ⟨heq, hfew⟩ := h
    obtain ⟨⟨q, hq, rfl⟩, _, h, rest, hs, _⟩ := findReady_starts hfind
    have halone := startLane_alone hs v
    refine ⟨(halone.lanes l (hfew q hq).symm).trans heq, fun q' hq' => ?_⟩
    obtain hold | hnew := halone.queue q' hq'
    · exact hfew q' hold
    · rw [hnew]
      exact hfew q hq
  · refine arbitrate_induction (P := fun e' => e'.started.Nodup) (fun e' l hnodup hfind => ?_) (hnone ▸ List.nodup_nil)
    obtain ⟨_, hnew, h, rest, hs, _⟩ := findReady_starts hfind
    rw [(startLane_alone hs v).started]
    exact List.nodup_cons.mpr ⟨hnew, hnodup⟩

end Sys2Proof.Proofs.Arbiter
end

section
/-! PROOFS of the family other: the start of a step, move by move, and what its lane makes of the results of the start event
(R9 to R13, R46 to R54, R75 to R78). -/

namespace Sys2Proof.Proofs.StepStarts

open Sys2Proof.Machine Sys2Proof.Safety Sys2Proof.Proofs.LaneRequests Sys2Proof.Proofs.LaneResults
open Sys2Proof.Proofs.StepResults Sys2Proof.Proofs.QueueAndPool Sys2Proof.Proofs.ActuatorLaws
open Sys2Proof.Proofs.HeartLaws Sys2Proof.Proofs.HaltOfThePart Sys2Proof.Proofs.Arbiter

/-! ## The results of the moves that start -/

section

variable {o : Owner} {out : ActOut}

/-- What the result of a move in its start event tells of its actuator. -/
structure ResultTells (o : Owner) (out : ActOut) : Prop where
  pending : out.report.result = .pending → out.act.moving = true ∧ out.act.owner = o
  done : out.report.result = .done → out.act.owner = ownerKept o
  failed : out.report.result = .failed → out.act.owner = .none ∧
    ∃ c, out.act.fault = some c ∧ ∀ a, ownNotices a out = [actFaultNotice a c]
  stopped : out.report.result ≠ .stopped

theorem Begun.tells (h : Begun o out) : ResultTells o out := by
  cases h with
  | fault v c x ho =>
    obtain ⟨hspec, hreport⟩ := faultWith_spec v c x
    have hresult : (x.faultWith v c).report.result = .failed := congrArg Report.result hreport
    refine ⟨fun h => MoveResult.noConfusion (h.symm.trans hresult), fun h => MoveResult.noConfusion (h.symm.trans hresult),
      fun _ => ⟨hspec.owner, c, hspec.fault, fun a => ?_⟩, fun h => MoveResult.noConfusion (h.symm.trans hresult)⟩
    unfold ownNotices
    rw [hreport]
  | rests _ hreport howner =>
    have hresult : out.report.result = .done := congrArg Report.result hreport
    exact ⟨fun h => MoveResult.noConfusion (h.symm.trans hresult), fun _ => howner,
      fun h => MoveResult.noConfusion (h.symm.trans hresult), fun h => MoveResult.noConfusion (h.symm.trans hresult)⟩
  | moves hmoving hreport howner =>
    have hresult : out.report.result = .pending := congrArg Report.result hreport
    exact ⟨fun _ => ⟨hmoving, howner⟩, fun h => MoveResult.noConfusion (h.symm.trans hresult),
      fun h => MoveResult.noConfusion (h.symm.trans hresult), fun h => MoveResult.noConfusion (h.symm.trans hresult)⟩

/-- A move started for a lane raises a notice only where it faults its actuator. -/
theorem Begun.quiet {l : LaneIx} (h : Begun (.lane l) out) (hf : out.report.result ≠ .failed) (a : ActIx) :
    ownNotices a out = [] := by
  unfold ownNotices
  cases h with
  | fault v c x ho => exact absurd (congrArg Report.result (faultWith_spec v c x).2) hf
  | rests _ hreport => rw [hreport]
  | moves _ hreport => rw [hreport]

end

/-! ## The moves of a step start (R46) -/

/-- A move of a step of lane `l` as it starts. -/
def startOut (v : Env) (l : LaneIx) (m : Motion) (mv : Move) : ActOut :=
  (m.act mv.act).startMove (v.view mv.act) (.lane l) mv.target

theorem startOut_begun (v : Env) (l : LaneIx) (m : Motion) (mv : Move) : Begun (.lane l) (startOut v l m mv) :=
  startMove_begun ..

/-- A step with the results of the moves that have started recorded. -/
def recordAll (moves : List Move) (result : ActIx → MoveResult) (g : Machine.Step) : Machine.Step :=
  { g with
    results := g.results.map fun p => if p.1 ∈ moves.map (·.act) then (p.1, result p.1) else p
    firstFailed := g.firstFailed.or ((moves.find? fun mv => result mv.act == .failed).map (·.act)) }

theorem recordAll_nil (result : ActIx → MoveResult) (g : Machine.Step) : recordAll [] result g = g := by
  simp [recordAll]

theorem recordAll_cons (mv : Move) {moves : List Move} (result : ActIx → MoveResult) (g : Machine.Step)
    (hnew : mv.act ∉ moves.map (·.act)) :
    recordAll (mv :: moves) result g = recordAll moves result (Step.record mv.act (result mv.act) g) := by
  have hresults : (g.results.map fun p => if p.1 ∈ (mv :: moves).map (·.act) then (p.1, result p.1) else p) =
      (Step.record mv.act (result mv.act) g).results.map
        fun p => if p.1 ∈ moves.map (·.act) then (p.1, result p.1) else p := by
    simp only [Step.record, List.map_map]
    refine List.map_congr_left fun p _ => ?_
    by_cases hp : p.1 = mv.act
    · simp [hp, hnew]
    · simp [hp]
  have hfirst : g.firstFailed.or (((mv :: moves).find? fun mv => result mv.act == .failed).map (·.act)) =
      (Step.record mv.act (result mv.act) g).firstFailed.or
        ((moves.find? fun mv => result mv.act == .failed).map (·.act)) := by
    unfold Step.record
    by_cases hf : result mv.act = .failed
    · cases g.firstFailed <;> simp [hf]
    · simp [hf]
  unfold recordAll
  rw [hresults, hfirst]
  rfl

/-- The report of a move that starts, as its lane takes it. -/
theorem takeReport_begun {l : LaneIx} {a : ActIx} {x : ActOut} {g : Machine.Step} {rest : List Machine.Step} {e : Event}
    (hb : Begun (.lane l) x) (hr : (e.m.lane l).state = .running) (hs : (e.m.lane l).steps = g :: rest)
    (hpending : ∀ p ∈ g.results, p.1 = a → p.2 = .pending) :
    (e.setAct a x.act).takeReport a x.report =
      reported l a x.act (Step.record a x.report.result g) rest (ownNotices a x) e := by
  cases hb with
  | fault v c y ho =>
    obtain ⟨_, hreport⟩ := faultWith_spec v c y
    unfold ownNotices
    rw [hreport, ho, takeReport_failed_running hr hs, ← record_failed]
    rfl
  | rests _ hreport =>
    unfold ownNotices
    rw [hreport, takeReport_done hr hs]
    rfl
  | moves _ hreport =>
    have hsame : Step.record a .pending g = g := by
      have hresults : (g.results.map fun p => if p.1 = a then (a, .pending) else p) = g.results := by
        refine (List.map_congr_left fun p hp => ?_).trans (List.map_id _)
        by_cases hpa : p.1 = a
        · rw [if_pos hpa, ← hpa, ← hpending p hp hpa]
          rfl
        · exact if_neg hpa
      unfold Step.record
      rw [hresults]
      rfl
    have hlane : ({ e.m.lane l with steps := g :: rest } : Lane) = e.m.lane l := by rw [← hs]
    have hset : (e.m.setAct a x.act).setLane l (e.m.lane l) = e.m.setAct a x.act := setLane_lane (e.m.setAct a x.act) l
    have hresult : x.report.result = .pending := by rw [hreport]; rfl
    unfold ownNotices
    rw [hresult, hsame, hreport, reported, hlane, hset, List.append_nil]
    rfl

/-- What the moves of a step that start make of an event. -/
structure MovesStarted (v : Env) (l : LaneIx) (moves : List Move) (result : ActIx → MoveResult) (g : Machine.Step)
    (rest : List Machine.Step) (e e' : Event) : Prop where
  moved : ∀ mv ∈ moves, e'.m.act mv.act = (startOut v l e.m mv).act
  lane : e'.m.lane l = { e.m.lane l with steps := recordAll moves result g :: rest }
  raised : e'.raised = e.raised ++ moves.flatMap fun mv => ownNotices mv.act (startOut v l e.m mv)
  marks : e'.m.marks = e.m.marks
  poolFree : e'.m.poolFree = e.m.poolFree

theorem startMoves_started {v : Env} {l : LaneIx} {result : ActIx → MoveResult} {rest : List Machine.Step}
    (moves : List Move) : ∀ (e : Event) (g : Machine.Step), (moves.map (·.act)).Nodup → (e.m.lane l).state = .running →
      (e.m.lane l).steps = g :: rest → (∀ p ∈ g.results, p.1 ∈ moves.map (·.act) → p.2 = .pending) →
      (∀ mv ∈ moves, result mv.act = (startOut v l e.m mv).report.result) →
      MovesStarted v l moves result g rest e (e.startMoves v l moves) := by
  induction moves with
  | nil =>
    intro e g _ _ hs _ _
    refine ⟨fun mv hmv => absurd hmv List.not_mem_nil, ?_, (List.append_nil _).symm, rfl, rfl⟩
    rw [recordAll_nil, ← hs]
    rfl
  | cons mv moves ih =>
    intro e g hnodup hr hs hpending hresult
    obtain ⟨hnew, hrest⟩ := List.nodup_cons.mp hnodup
    obtain ⟨hresult0, hresults⟩ := List.forall_mem_cons.mp hresult
    have htaken := takeReport_begun (a := mv.act) (startOut_begun v l e.m mv) hr hs fun p hp hpa =>
      hpending p hp (hpa ▸ List.mem_cons_self ..)
    rw [← hresult0] at htaken
    obtain ⟨f, hf⟩ : ∃ f, f = reported l mv.act (startOut v l e.m mv).act (Step.record mv.act (result mv.act) g) rest
        (ownNotices mv.act (startOut v l e.m mv)) e := ⟨_, rfl⟩
    have heq : e.startMoves v l (mv :: moves) = f.startMoves v l moves := by
      rw [hf, ← htaken]
      rfl
    have hlane : f.m.lane l = { e.m.lane l with steps := Step.record mv.act (result mv.act) g :: rest } :=
      hf ▸ lane_reported _
    have hself : f.m.act mv.act = (startOut v l e.m mv).act := hf ▸ act_reported_self _
    have hout : ∀ mw ∈ moves, startOut v l f.m mw = startOut v l e.m mw := fun mw hmw => by
      have hne : mw.act ≠ mv.act := fun he => hnew (List.mem_map.mpr ⟨mw, hmw, he⟩)
      unfold startOut
      rw [hf, act_reported_ne hne]
    have hstarted := ih f _ hrest (by rw [hlane]; exact hr) (by rw [hlane]) (fun p hp hmem => ?_) fun mw hmw => by
      rw [hout mw hmw]
      exact hresults mw hmw
    case refine_1 =>
      obtain ⟨q, hq, rfl⟩ := List.mem_map.mp hp
      by_cases hqa : q.1 = mv.act
      · rw [if_pos hqa] at hmem
        exact absurd hmem hnew
      · rw [if_neg hqa] at hmem ⊢
        exact hpending q hq (List.mem_cons_of_mem _ hmem)
    obtain ⟨_, hstill⟩ := startMoves_startFrame v l moves f
    rw [heq]
    refine ⟨List.forall_mem_cons.mpr ⟨?_, fun mw hmw => ?_⟩, ?_, ?_, ?_, ?_⟩
    · rw [hstill mv.act fun mw hmw he => hnew (List.mem_map.mpr ⟨mw, hmw, he⟩), hself]
    · rw [hstarted.moved mw hmw, hout mw hmw]
    · rw [hstarted.lane, hlane, recordAll_cons mv result g hnew]
    · have hnotes : (moves.flatMap fun mw => ownNotices mw.act (startOut v l f.m mw)) =
          moves.flatMap fun mw => ownNotices mw.act (startOut v l e.m mw) :=
        List.flatMap_congr fun mw hmw => by rw [hout mw hmw]
      rw [hstarted.raised, hnotes, List.flatMap_cons, ← List.append_assoc, hf]
      rfl
    · rw [hstarted.marks, hf]
      rfl
    · rw [hstarted.poolFree, hf]
      rfl

/-! ## The head of a lane starts (R46, R78) -/

/-- The mark that a start consumes (R83). -/
theorem mark_consumeMark (c : StartCond) (e : Event) (k : MarkIx) :
    (e.consumeMark c).m.mark k = (e.m.mark k && decide (c ≠ .onMark k)) := by
  cases c with
  | onMark j =>
    refine (mark_setMark ..).trans ?_
    by_cases hk : k = j
    · simp [hk]
    · simp [hk, Ne.symm hk]
  | next | delay | atTime | onInput => simp [Event.consumeMark]

/-- The head of a lane with the results of its start event. -/
def startedStep (now : Time) (h : Machine.Step) (result : ActIx → MoveResult) : Machine.Step :=
  { h with
    run := .running, startTime := some now, results := h.moves.map fun mv => (mv.act, result mv.act)
    firstFailed := (h.moves.find? fun mv => result mv.act == .failed).map (·.act) }

theorem recordAll_begunStep (now : Time) (h : Machine.Step) (result : ActIx → MoveResult) :
    recordAll h.moves result (begunStep now h) = startedStep now h result := by
  have hresults : ((begunStep now h).results.map fun p => if p.1 ∈ h.moves.map (·.act) then (p.1, result p.1) else p) =
      h.moves.map fun mv => (mv.act, result mv.act) := by
    simp only [begunStep, List.map_map]
    refine List.map_congr_left fun mv hmv => ?_
    exact if_pos (List.mem_map_of_mem hmv)
  unfold recordAll
  rw [hresults]
  rfl

/-- The head of lane `l` has started, its lane still to act on the results. -/
structure HeadStarted (v : Env) (l : LaneIx) (h : Machine.Step) (rest : List Machine.Step) (result : ActIx → MoveResult)
    (e c : Event) : Prop where
  moved : ∀ mv ∈ h.moves, c.m.act mv.act = (startOut v l e.m mv).act
  still : ∀ b, (∀ mv ∈ h.moves, mv.act ≠ b) → c.m.act b = e.m.act b
  lane : c.m.lane l =
    { e.m.lane l with state := .running, delayTimer := none, steps := startedStep v.time h result :: rest }
  others : ∀ j, j ≠ l → c.m.lane j = e.m.lane j
  queue : c.m.queue = e.m.queue.filter fun q => q.lane ≠ l
  mark : ∀ k, c.m.mark k = (e.m.mark k && decide (h.cond ≠ .onMark k))
  poolFree : c.m.poolFree = e.m.poolFree
  raised : c.raised = e.raised ++ h.moves.flatMap fun mv => ownNotices mv.act (startOut v l e.m mv)

theorem startLane_headStarted {v : Env} {l : LaneIx} {h : Machine.Step} {rest : List Machine.Step}
    {result : ActIx → MoveResult} {e : Event} (hs : (e.m.lane l).steps = h :: rest)
    (hnodup : (h.moves.map (·.act)).Nodup)
    (hresult : ∀ mv ∈ h.moves, result mv.act = (startOut v l e.m mv).report.result) :
    ∃ c, HeadStarted v l h rest result e c ∧ e.startLane v l = c.actOnResults v l := by
  obtain ⟨marks, hbegin⟩ := begin_eq v l h e
  have hmark : ∀ k, (((e.leaveQueue l).consumeMark h.cond).beginRun v l h).m.mark k =
      (e.m.mark k && decide (h.cond ≠ .onMark k)) := mark_consumeMark h.cond (e.leaveQueue l)
  have hstart := startLane_eq hs v
  obtain ⟨b, hb⟩ : ∃ b, b = ((e.leaveQueue l).consumeMark h.cond).beginRun v l h := ⟨_, rfl⟩
  rw [← hb] at hbegin hmark hstart
  have hlane : b.m.lane l = { e.m.lane l with
      state := .running, steps := begunStep v.time h :: rest, delayTimer := none } := by
    rw [hbegin, ← begunLane_eq hs]
    exact lane_setLane_self ..
  have hact : ∀ a, b.m.act a = e.m.act a := fun a => by
    rw [hbegin]
    rfl
  have hout : ∀ mv, startOut v l b.m mv = startOut v l e.m mv := fun mv => by
    unfold startOut
    rw [hact]
  have hstarted := startMoves_started (v := v) (l := l) (result := result) (rest := rest) h.moves b (begunStep v.time h)
    hnodup (by rw [hlane]) (by rw [hlane])
    (fun p hp _ => by
      obtain ⟨mv, _, rfl⟩ := List.mem_map.mp hp
      rfl)
    fun mv hmv => by
      rw [hout]
      exact hresult mv hmv
  obtain ⟨hframe, hstill⟩ := startMoves_startFrame v l h.moves b
  refine ⟨_, ?_, hstart⟩
  constructor
  case moved => exact fun mv hmv => by rw [hstarted.moved mv hmv, hout]
  case still => exact fun a ha => (hstill a ha).trans (hact a)
  case lane => rw [hstarted.lane, hlane, recordAll_begunStep]
  case others =>
    intro j hj
    rw [hframe.lanes j hj, hbegin]
    exact lane_setLane_ne _ _ _ _ hj
  case queue =>
    rw [hframe.queue, hbegin]
    rfl
  case mark => exact fun k => (congrArg (·.get k) hstarted.marks).trans (hmark k)
  case poolFree =>
    rw [hstarted.poolFree, hbegin]
    rfl
  case raised =>
    have hnotes : (h.moves.flatMap fun mv => ownNotices mv.act (startOut v l b.m mv)) =
        h.moves.flatMap fun mv => ownNotices mv.act (startOut v l e.m mv) :=
      List.flatMap_congr fun mv _ => by rw [hout mv]
    rw [hstarted.raised, hnotes, hbegin]
    rfl

/-! ## STEP_START (R75, R78) -/

section

variable {s : State} {l : LaneIx} {limit : Timer}

/-- With one entry queued, which may start, the arbiter starts it and no other: its lane has started in the event (R77). -/
theorem endOf_one (hmode : s.modes.mode = .run) (hq : s.motion.queue = [{ lane := l, limit := limit }])
    (hmay : MayStart s.env s.event [] { lane := l, limit := limit }) : endOf s [] = s.event.startLane s.env l := by
  have hfind : s.event.findReady s.env [] s.event.m.queue = some l :=
    (findReady_eq_some ..).mpr ⟨[], _, [], hq, rfl, hmay, fun pre' q' post' h => by simp at h⟩
  obtain ⟨h, rest, hs, _⟩ := hmay
  have halone := startLane_alone (e := s.event) hs s.env
  have hnone : (s.event.startLane s.env l).findReady s.env [] (s.event.startLane s.env l).m.queue = none := by
    refine (findReady_eq_none ..).mpr fun pre q post hsplit ⟨_, _, _, hnew, _⟩ => hnew ?_
    have hmem : q ∈ (s.event.startLane s.env l).m.queue := by simp [hsplit]
    have hlane : q.lane = l := by
      obtain hold | hnew := halone.queue q hmem
      · have hold' : q ∈ s.motion.queue := hold
        rw [hq] at hold'
        rw [List.mem_singleton.mp hold']
      · exact hnew
    rw [halone.started, hlane]
    exact List.mem_cons_self ..
  have harbitrate : endOf s [] = s.event.startReady s.env 4 := if_pos (beq_iff_eq.mpr hmode)
  rw [harbitrate, Event.startReady, hfind]
  dsimp only
  rw [Event.startReady, hnone]

theorem exec_stepStart (hclosed : s.openEnd = none) (hreset : s.modes.inReset = none) :
    exec .stepStart s = .next s.startEvent := by
  have hlive := live_operating (fun t => if s.openEnd.isSome then t else t.startEvent) (s := s) ⟨hreset, hclosed⟩
  refine congrArg Host.Outcome.next (hlive.trans (if_neg ?_))
  rw [hclosed]
  exact Bool.false_ne_true

theorem startEvent_ready (hmode : s.modes.mode = .run)
    (h : ∃ pre q post, s.motion.queue = pre ++ q :: post ∧ MayStart s.env s.event pre q) :
    s.startEvent = if s.tickOwed then s.ownTick else s.body.close := by
  obtain ⟨pre, q, post, hq, hmay⟩ := h
  have hsome : (s.event.findReady s.env [] s.motion.queue).isSome = true := by
    rw [Option.isSome_iff_ne_none]
    exact fun hnone => (findReady_eq_none ..).mp hnone pre q post hq hmay
  unfold State.startEvent
  rw [hmode, hsome]
  rfl

theorem startEvent_idle (h : s.modes.mode ≠ .run ∨
    ∀ pre q post, s.motion.queue = pre ++ q :: post → ¬ MayStart s.env s.event pre q) : s.startEvent = s := by
  refine if_neg ?_
  obtain h | h := h
  · simp [h]
  · rw [(findReady_eq_none ..).mpr h, Option.isSome_none, Bool.and_false]
    exact Bool.false_ne_true

end

/-! ## The target of the move on an actuator -/

/-- The target that the moves of a step give an actuator. -/
def targetOf (moves : List Move) (a : ActIx) : MoveTarget :=
  ((moves.find? fun mv => mv.act == a).map (·.target)).getD .release

theorem targetOf_eq {moves : List Move} (hnodup : (moves.map (·.act)).Nodup) :
    ∀ mv ∈ moves, targetOf moves mv.act = mv.target := by
  induction moves with
  | nil => exact fun _ h => absurd h List.not_mem_nil
  | cons mw moves ih =>
    obtain ⟨hnew, hrest⟩ := List.nodup_cons.mp hnodup
    refine List.forall_mem_cons.mpr ⟨by simp [targetOf], fun mv hmv => ?_⟩
    have hne : (mw.act == mv.act) = false :=
      beq_eq_false_iff_ne.mpr fun he => hnew (List.mem_map.mpr ⟨mv, hmv, he.symm⟩)
    rw [← ih hrest mv hmv]
    unfold targetOf
    rw [List.find?_cons, hne]

/-- The move on an actuator of a step of lane `l` as it starts. -/
def outOn (v : Env) (l : LaneIx) (m : Motion) (moves : List Move) (a : ActIx) : ActOut :=
  startOut v l m { act := a, target := targetOf moves a }

theorem outOn_eq {v : Env} {l : LaneIx} {m : Motion} {moves : List Move} (hnodup : (moves.map (·.act)).Nodup) :
    ∀ mv ∈ moves, outOn v l m moves mv.act = startOut v l m mv := fun mv hmv => by
  unfold outOn
  rw [targetOf_eq hnodup mv hmv]

end Sys2Proof.Proofs.StepStarts
end

section
/-! PROOFS of the family other: STEP_START (R9 to R13, R46 to R54, R75 to R78). -/

namespace Sys2Proof.Proofs.StepStart

open Sys2Proof.Machine Sys2Proof.Safety Sys2Proof.Proofs.LaneRequests Sys2Proof.Proofs.LaneResults
open Sys2Proof.Proofs.StepResults Sys2Proof.Proofs.QueueAndPool Sys2Proof.Proofs.ActuatorLaws
open Sys2Proof.Proofs.HeartLaws Sys2Proof.Proofs.HaltOfThePart Sys2Proof.Proofs.Arbiter Sys2Proof.Proofs.StepStarts
open Sys2Proof.Proofs.Jog

/-! ## The lane of a head that has started acts on the results (R46 to R54) -/

section

variable {v : Env} {l : LaneIx} {h : Machine.Step} {rest : List Machine.Step} {result : ActIx → MoveResult} {e c : Event}

theorem mem_results {now : Time} {b : ActIx} {r : MoveResult} :
    (b, r) ∈ (startedStep now h result).results ↔ (∃ mv ∈ h.moves, mv.act = b) ∧ result b = r := by
  simp only [startedStep, List.mem_map, Prod.mk.injEq]
  constructor
  · rintro ⟨mv, hmv, rfl, hr⟩
    exact ⟨⟨mv, hmv, rfl⟩, hr⟩
  · rintro ⟨⟨mv, hmv, rfl⟩, hr⟩
    exact ⟨mv, hmv, rfl, hr⟩

theorem exists_result {now : Time} {r : MoveResult} :
    (∃ p ∈ (startedStep now h result).results, p.2 = r) ↔ ∃ mv ∈ h.moves, result mv.act = r := by
  simp [startedStep]

theorem forall_results {now : Time} {P : MoveResult → Prop} :
    (∀ p ∈ (startedStep now h result).results, P p.2) ↔ ∀ mv ∈ h.moves, P (result mv.act) := by
  simp [startedStep]

/-- Nothing has failed, and a move goes on: the step runs. -/
theorem HeadStarted.runs (hc : HeadStarted v l h rest result e c) (hf : ∀ mv ∈ h.moves, result mv.act ≠ .failed)
    (hp : ∃ mv ∈ h.moves, result mv.act = .pending) : c.actOnResults v l = c :=
  actOnResults_pending (h := startedStep v.time h result) (rest := rest) (by rw [hc.lane]) (exists_result.mpr hp)
    (.inr (forall_results (P := (· ≠ .failed)).mpr hf)) v

/-- A move has failed (R51 to R54). -/
theorem HeadStarted.fails (hc : HeadStarted v l h rest result e c) (hf : ∃ mv ∈ h.moves, result mv.act = .failed) :
    FailureTaken v l (startedStep v.time h result) rest c (c.actOnResults v l) :=
  actOnResults_failed (by rw [hc.lane]) (by rw [hc.lane]) (exists_result.mpr hf) v

/-- Every move is done (R48). -/
theorem HeadStarted.completes (hc : HeadStarted v l h rest result e c) (hd : ∀ mv ∈ h.moves, result mv.act = .done) :
    Completes v l (startedStep v.time h result) rest c (c.actOnResults v l) :=
  actOnResults_done (by rw [hc.lane]) (by rw [hc.lane]) (forall_results (P := (· = .done)).mpr hd) v

/-- The policy of the lane is that which it had. -/
theorem HeadStarted.policy (hc : HeadStarted v l h rest result e c) : (c.m.lane l).policy = (e.m.lane l).policy := by
  rw [hc.lane]

theorem HeadStarted.raised_mem (hc : HeadStarted v l h rest result e c) {mv : Move} (hmv : mv ∈ h.moves) {n : Raised}
    (hn : n ∈ ownNotices mv.act (startOut v l e.m mv)) : n ∈ (c.actOnResults v l).raised := by
  obtain ⟨more, hmore⟩ := (actOnResults_frame v l c).raised
  rw [hmore, hc.raised, List.mem_append, List.mem_append]
  exact .inl (.inr (List.mem_flatMap.mpr ⟨mv, hmv, hn⟩))

theorem laneWithFailure_of_runsOn {policy : FaultPolicy} {g : Machine.Step} {ln : Lane} (hp : ln.policy = policy)
    (hr : RunsOn policy g) : laneWithFailure g rest ln = { ln with steps := g :: rest } := by
  unfold laneWithFailure
  rw [if_pos hr.2, hp, hr.1]

/-- A FAILED move leaves its actuator as the fault did (R24, R51). -/
theorem HeadStarted.failed_act (hc : HeadStarted v l h rest result e c) (hf : ∃ mv ∈ h.moves, result mv.act = .failed)
    {mv : Move} (hres : result mv.act = .failed) (howner : (c.m.act mv.act).owner = .none) :
    (c.actOnResults v l).m.act mv.act = c.m.act mv.act := by
  have hnotPending : (mv.act, MoveResult.pending) ∉ (startedStep v.time h result).results := fun hmem =>
    MoveResult.noConfusion (hres.symm.trans (mem_results.mp hmem).2)
  rw [(HeadStarted.fails hc hf).act, abortedAct_not_lane hnotPending (by rw [howner]; exact Owner.noConfusion), ite_self]

/-- A PENDING move beside a FAILED one goes on, or is stopped, as the policy says (R52, R53). -/
theorem HeadStarted.pending_act (hc : HeadStarted v l h rest result e c) (hf : ∃ mv ∈ h.moves, result mv.act = .failed)
    {mv : Move} (hmv : mv ∈ h.moves) (hres : result mv.act = .pending) (hmoving : (c.m.act mv.act).moving = true) :
    ((e.m.lane l).policy = .finishOthers → (c.actOnResults v l).m.act mv.act = c.m.act mv.act) ∧
      ((e.m.lane l).policy = .stopAll → (c.actOnResults v l).m.act mv.act =
        stoppedBy (v.view mv.act) (c.m.act mv.act).cfg.stopAction (c.m.act mv.act)) := by
  have hpending : (mv.act, MoveResult.pending) ∈ (startedStep v.time h result).results :=
    mem_results.mpr ⟨⟨mv, hmv, rfl⟩, hres⟩
  have hact := (HeadStarted.fails hc hf).act mv.act
  rw [HeadStarted.policy hc] at hact
  refine ⟨fun hp => hact.trans (if_pos ⟨hp, _, hpending, rfl⟩), fun hp => hact.trans ((if_neg fun hon => ?_).trans
    (abortedAct_pending hpending hmoving _ _))⟩
  exact FaultPolicy.noConfusion (hp.symm.trans hon.1)

/-- A lane that the start event leaves FAULTED says so, and has given up the actuators of its DONE moves (R54). -/
theorem HeadStarted.faulted (hc : HeadStarted v l h rest result e c) (hf : ∃ mv ∈ h.moves, result mv.act = .failed)
    (hfaulted : ((c.actOnResults v l).m.lane l).state = .faulted) : failNotice l h ∈ (c.actOnResults v l).raised ∧
      ∀ mv ∈ h.moves, result mv.act = .done → (c.m.act mv.act).owner = .lane l →
        (c.actOnResults v l).m.act mv.act = { c.m.act mv.act with owner := .none } := by
  have hfails := HeadStarted.fails hc hf
  have hstops : ¬ RunsOn (c.m.lane l).policy (startedStep v.time h result) := fun hon => by
    rw [hfails.lane, laneWithFailure_of_runsOn rfl hon, hc.lane] at hfaulted
    cases hfaulted
  refine ⟨?_, fun mv hmv hres howner => ?_⟩
  · rw [hfails.raised, if_neg hstops]
    exact List.mem_append_right _ (List.mem_singleton_self _)
  · have hnotPending : (mv.act, MoveResult.pending) ∉ (startedStep v.time h result).results := fun hmem =>
      MoveResult.noConfusion (hres.symm.trans (mem_results.mp hmem).2)
    rw [hfails.act, if_neg hstops, abortedAct_settled (h := startedStep v.time h result) hnotPending ⟨mv, hmv, rfl⟩,
      if_pos howner]

/-- The queue after a completed step: its lane's next head alone, where it is evaluated into it (R48, R68). -/
theorem Completes.queue_of_empty {e' : Event} {g : Machine.Step} (hd : Completes v l g rest c e') (hq : c.m.queue = []) :
    ((e'.m.lane l).state ≠ .queued → e'.m.queue = []) ∧
      ∀ f fs, (e'.m.lane l).state = .queued → (e'.m.lane l).steps = f :: fs →
        e'.m.queue = [{ lane := l, limit := Timer.start f.startLimit }] := by
  have hqueue := hd.queue
  rw [hq, List.nil_append, ← hd.lane] at hqueue
  refine ⟨fun hst => hqueue.trans (if_neg hst), fun f fs hst hs => (hqueue.trans (if_pos hst)).trans ?_⟩
  unfold headEntry
  rw [hs]
  rfl

theorem laneWithFailure_started (hc : HeadStarted v l h rest result e c) :
    laneWithFailure (startedStep v.time h result) rest (c.m.lane l) =
      laneWithFailure (startedStep v.time h result) rest { e.m.lane l with state := .running, delayTimer := none } := by
  rw [hc.lane]
  exact laneWithFailure_steps (startedStep v.time h result) rest _
    { e.m.lane l with state := .running, delayTimer := none }

end

/-! ## A head that may start -/

/-- The one queued step may start: its actuators managed, free and at rest. -/
structure MayRun (s : State) (l : LaneIx) (limit : Timer) (h : Machine.Step) (rest : List Machine.Step) : Prop where
  operating : Operating s
  owed : s.tickOwed = false
  mode : s.modes.mode = .run
  queue : s.motion.queue = [{ lane := l, limit := limit }]
  steps : (s.motion.lane l).steps = h :: rest
  nodup : (h.moves.map (·.act)).Nodup
  cond : CondMet s.motion s.env h.cond
  free : ∀ mv ∈ h.moves, (s.motion.act mv.act).managed = true ∧ (s.motion.act mv.act).owner = .none ∧
    (s.motion.act mv.act).state = .rest ∧ ∀ g ∈ (s.motion.act mv.act).cfg.guards, GuardMet s.motion g

section

variable {s : State} {l : LaneIx} {limit : Timer} {h : Machine.Step} {rest : List Machine.Step}

theorem MayRun.mayStart (hr : MayRun s l limit h rest) : MayStart s.env s.event [] { lane := l, limit := limit } := by
  refine ⟨h, rest, hr.steps, List.not_mem_nil, fun mv hmv => ?_, hr.cond, fun o ho => absurd ho List.not_mem_nil⟩
  obtain ⟨_, howner, hstate, hguards⟩ := hr.free mv hmv
  exact ⟨howner, by rw [show (s.event.m.act mv.act).state = _ from hstate]; exact ActState.noConfusion, hguards⟩

theorem MayRun.exec (hr : MayRun s l limit h rest) : exec .stepStart s = .next s.body.close := by
  rw [exec_stepStart hr.operating.2 hr.operating.1,
    startEvent_ready hr.mode ⟨[], _, [], hr.queue, hr.mayStart⟩, hr.owed]
  rfl

/-- The outcome of the move on an actuator in the start event. -/
def startedOn (s : State) (l : LaneIx) (h : Machine.Step) (a : ActIx) : ActOut := outOn s.env l s.motion h.moves a

theorem MayRun.begins (hr : MayRun s l limit h rest) : ∀ mv ∈ h.moves, MoveBegins (s.env.view mv.act) (.lane l) mv.target
    (s.motion.act mv.act) (startedOn s l h mv.act).act (startedOn s l h mv.act).report.result := fun mv hmv => by
  rw [startedOn, outOn_eq hr.nodup mv hmv]
  exact startMove_spec _ _ _ _ (hr.free mv hmv).1

theorem startedOn_begun (s : State) (l : LaneIx) (h : Machine.Step) (a : ActIx) : Begun (.lane l) (startedOn s l h a) :=
  startOut_begun ..

theorem MayRun.started (hr : MayRun s l limit h rest) : ∃ c,
    HeadStarted s.env l h rest (fun a => (startedOn s l h a).report.result) s.event c ∧
      endOf s [] = c.actOnResults s.env l ∧ (∀ mv ∈ h.moves, c.m.act mv.act = (startedOn s l h mv.act).act) ∧
      c.m.queue = [] ∧ ∀ mv ∈ h.moves, startOut s.env l s.motion mv = startedOn s l h mv.act := by
  have hout : ∀ mv ∈ h.moves, startedOn s l h mv.act = startOut s.env l s.motion mv := outOn_eq hr.nodup
  obtain ⟨c, hc, hstart⟩ := startLane_headStarted (v := s.env) (e := s.event)
    (result := fun a => (startedOn s l h a).report.result) hr.steps hr.nodup fun mv hmv => by
      rw [hout mv hmv]
      rfl
  refine ⟨c, hc, (endOf_one hr.mode hr.queue hr.mayStart).trans hstart, fun mv hmv => ?_, ?_,
    fun mv hmv => (hout mv hmv).symm⟩
  · rw [hc.moved mv hmv, hout mv hmv]
    rfl
  · rw [hc.queue, show s.event.m.queue = _ from hr.queue]
    simp

/-- The heart at the end of the event, beside the lane and the actuators of the step. -/
theorem MayRun.alone (hr : MayRun s l limit h rest) : StartsAlone l h s.event (endOf s []) := by
  rw [endOf_one hr.mode hr.queue hr.mayStart]
  exact startLane_alone (e := s.event) hr.steps s.env

end

/-! ## One move that runs -/

/-- A move away from where its actuator rests, both coils off, with nothing sensed: it travels (R12, R13). -/
theorem moveBegins_travels {v : View} {l : LaneIx} {e : End} {x y : Actuator} {r : MoveResult}
    (hb : MoveBegins v (.lane l) e.asMove x y r) (hl : v.latched = false)
    (hat : ¬ (x.position = e.position ∧ x.supervised = true)) (ha : x.lineA = false) (hb' : x.lineB = false)
    (hp : x.pulse = none) (hc : ¬ conflicting v x) (hs : ¬ sensed v e x) :
    y = { travelling v.time e x with owner := .lane l, supervised := false } ∧ r = .pending := by
  have hopp : ¬ OppositeOn e x := by
    rintro (⟨_, hon⟩ | ⟨_, p, hpulse, _⟩)
    · cases e
      · exact absurd (hb'.symm.trans hon) (by decide)
      · exact absurd (ha.symm.trans hon) (by decide)
    · cases hp.symm.trans hpulse
  exact (((hb.2.2 e hl rfl).2 fun h => hat h.2).2 hopp).2.1 hc hs

/-- A step of one move that runs (R12, R13, R46). -/
theorem one_move_runs {s : State} {l : LaneIx} {limit : Timer} {h : Machine.Step} {rest : List Machine.Step} {a : ActIx}
    {e : End} (hr : MayRun s l limit h rest) (hmoves : h.moves = [{ act := a, target := e.asMove }])
    (hl : s.latches.get (bankOf a) = false)
    (hat : ¬ ((s.motion.act a).position = e.position ∧ (s.motion.act a).supervised = true))
    (ha : (s.motion.act a).lineA = false) (hb : (s.motion.act a).lineB = false) (hp : (s.motion.act a).pulse = none)
    (hc : ¬ conflicting (s.env.view a) (s.motion.act a)) (hs : ¬ sensed (s.env.view a) e (s.motion.act a)) :
    HeadStarted s.env l h rest (fun _ => .pending) s.event (endOf s []) ∧ (endOf s []).m.queue = [] ∧
      (endOf s []).m.act a = { travelling s.time e (s.motion.act a) with owner := .lane l, supervised := false } ∧
      (endOf s []).raised = [] := by
  obtain ⟨mv, hmv⟩ : ∃ mv : Move, mv = { act := a, target := e.asMove } := ⟨_, rfl⟩
  rw [← hmv] at hmoves
  have hmem : mv ∈ h.moves := by simp [hmoves]
  have hbegins := hr.begins mv hmem
  obtain ⟨c, hstarted, hend, hmoved, hqueue, hout⟩ := hr.started
  have hact := hmoved mv hmem
  have houta := hout mv hmem
  subst hmv
  obtain ⟨htravels, hpending⟩ := moveBegins_travels hbegins hl hat ha hb hp hc hs
  have hall : ∀ mv ∈ h.moves, (startedOn s l h mv.act).report.result = .pending := fun mv hmv => by
    rw [hmoves, List.mem_singleton] at hmv
    subst hmv
    exact hpending
  have hruns : c.actOnResults s.env l = c := HeadStarted.runs hstarted
    (fun mv hmv hf => MoveResult.noConfusion ((hall mv hmv).symm.trans hf)) ⟨_, hmem, hpending⟩
  rw [hruns] at hend
  rw [hend]
  refine ⟨{ hstarted with lane := ?_ }, hqueue, hact.trans htravels, ?_⟩
  · have hstep : startedStep s.env.time h (fun a => (startedOn s l h a).report.result) =
        startedStep s.env.time h fun _ => .pending := by
      simp [startedStep, hmoves, hpending]
    rw [← hstep]
    exact hstarted.lane
  · have hquiet : ownNotices a (startOut s.env l s.motion { act := a, target := e.asMove }) = [] := by
      rw [houta]
      exact Begun.quiet (startedOn_begun s l h a) (fun hf => MoveResult.noConfusion (hpending.symm.trans hf)) a
    rw [hstarted.raised, hmoves, List.flatMap_singleton]
    exact hquiet

/-- Settles O18: the arbiter's turn at the end of the event starts the one queued head, move by move, and its lane acts on the
results. -/
theorem stepStartRunsTheHead : Obligations.StepStartRunsTheHead := by
  refine ⟨fun s l limit h rest a e hop howed hmode hq hs hmoves hcond hguards hm ho hst hl hat hla hlb hp hc hsens => ?_,
    fun s l limit h rest hop howed hmode hq hs hne hnodup hcond hfree => ?_,
    fun s pre q post hop howed hmode hq hmay => ?_, fun s hopen hidle => ?_⟩
  · have hr : MayRun s l limit h rest :=
      { operating := hop, owed := howed, mode := hmode, queue := hq, steps := hs, nodup := by simp [hmoves], cond := hcond,
        free := fun mv hmv => by
          rw [hmoves, List.mem_singleton] at hmv
          subst hmv
          exact ⟨hm, ho, hst, hguards⟩ }
    obtain ⟨hstarted, hqueue, hact, hraised⟩ := one_move_runs hr hmoves hl hat hla hlb hp hc hsens
    have hafter : After s [] s.body.close := After.of_close s.body rfl
    have hmotion : s.body.close.motion = (endOf s []).m := hafter.motion
    have hwaiting : s.body.close.notices.waiting = s.notices.waiting := by
      have hnotices := congrArg NoticeUnit.waiting hafter.notices
      rw [hraised] at hnotices
      exact hnotices
    refine ⟨_, hr.exec, ?_⟩
    rw [hmotion]
    refine ⟨hqueue, hact, fun b hb => hstarted.still b fun mv hmv he => ?_, ?_, hstarted.others, hstarted.mark,
      hstarted.poolFree, hwaiting⟩
    · rw [hmoves, List.mem_singleton] at hmv
      subst hmv
      exact hb he.symm
    · rw [hstarted.lane]
      simp [startedStep, hmoves]
      rfl
  · have hr : MayRun s l limit h rest :=
      { operating := hop, owed := howed, mode := hmode, queue := hq, steps := hs, nodup := hnodup, cond := hcond,
        free := hfree }
    obtain ⟨c, hstarted, hend, hmoved, hqueue, hout⟩ := hr.started
    have hafter : After s [] s.body.close := After.of_close s.body rfl
    have hmotion : s.body.close.motion = (endOf s []).m := hafter.motion
    refine ⟨s.body.close, fun a => (startedOn s l h a).act, fun a => (startedOn s l h a).report.result, hr.exec, hafter,
      hr.begins, fun mv hmv code hf hcode => ?_, fun b hb => ?_, fun j hj => ?_, fun begun g hbegun hg =>
        ⟨fun hf hp => ?_, fun hf => ?_, fun hd => ?_⟩⟩
    · rw [hend]
      obtain ⟨_, code', hcode', hnotice⟩ := (Begun.tells (startedOn_begun s l h mv.act)).failed hf
      obtain rfl : code = code' := Option.some.inj (hcode.symm.trans hcode')
      refine HeadStarted.raised_mem hstarted hmv ?_
      rw [show startOut s.env l s.event.m mv = _ from hout mv hmv, hnotice]
      exact List.mem_singleton_self _
    · rw [hmotion]
      exact hr.alone.act b hb
    · rw [hmotion]
      exact hr.alone.lanes j hj
    · subst hbegun hg
      rw [hmotion, hend, HeadStarted.runs hstarted hf hp]
      exact ⟨hstarted.lane, hmoved, hqueue, hstarted.poolFree, hstarted.mark⟩
    · subst hbegun hg
      have hfails := HeadStarted.fails hstarted hf
      rw [hmotion, hend]
      refine ⟨hfails.lane.trans (laneWithFailure_started hstarted), hfails.queue.trans hqueue,
        hfails.poolFree.trans hstarted.poolFree, fun k => (congrArg (·.get k) hfails.marks).trans (hstarted.mark k),
        fun mv hmv hres => ?_, fun mv hmv hres => ?_, fun hfaulted => ?_⟩
      · obtain ⟨howner, _⟩ := (Begun.tells (startedOn_begun s l h mv.act)).failed hres
        rw [HeadStarted.failed_act hstarted hf hres (by rw [hmoved mv hmv]; exact howner), hmoved mv hmv]
      · obtain ⟨hmoving, _⟩ := (Begun.tells (startedOn_begun s l h mv.act)).pending hres
        obtain ⟨hgoesOn, hstopped⟩ :=
          HeadStarted.pending_act hstarted hf hmv hres (by rw [hmoved mv hmv]; exact hmoving)
        rw [hmoved mv hmv] at hgoesOn hstopped
        cases hp : (s.motion.lane l).policy with
        | finishOthers => exact hgoesOn hp
        | stopAll => exact hstopped hp
      · obtain ⟨hnotice, hgiven⟩ := HeadStarted.faulted hstarted hf hfaulted
        refine ⟨hnotice, fun mv hmv hres => ?_⟩
        have howner := (Begun.tells (startedOn_begun s l h mv.act)).done hres
        rw [hgiven mv hmv hres (by rw [hmoved mv hmv]; exact howner), hmoved mv hmv]
    · subst hbegun hg
      have hdone := HeadStarted.completes hstarted hd
      have hlane := hdone.lane
      rw [hstarted.lane, show s.env.mode = .run from hmode] at hlane
      obtain ⟨hnone, hnext⟩ := Completes.queue_of_empty hdone hqueue
      rw [hmotion, hend]
      refine ⟨hlane, fun mv hmv => ?_, ?_, fun k => ?_, fun hreport => ?_, hnone, hnext⟩
      · rw [hdone.act, if_pos ⟨mv, hmv, rfl⟩, hmoved mv hmv]
      · rw [hdone.poolFree, hstarted.poolFree]
        rfl
      · rw [hdone.mark, hstarted.mark]
        exact congrArg (_ || ·) (Bool.eq_iff_iff.mpr (beq_iff_eq.trans decide_eq_true_iff.symm))
      · rw [hdone.raised, completionNotices_eq, if_pos (show (startedStep _ h _).report = true from hreport)]
        exact List.mem_append_right _ (List.mem_append_left _ (List.mem_append_left _ (List.mem_singleton_self _)))
  · obtain ⟨u, htaken, hafter⟩ := ownTick_spec s
    refine ⟨u, ⟨_, (exec_stepStart hop.2 hop.1).trans (congrArg _ ?_), hafter⟩, htaken⟩
    exact (startEvent_ready hmode ⟨pre, q, post, hq, hmay⟩).trans (if_pos howed)
  · by_cases hreset : s.modes.inReset = none
    · rw [exec_stepStart hopen hreset, startEvent_idle hidle]
    · exact congrArg Host.Outcome.next (if_pos (Option.isSome_iff_ne_none.mpr hreset))

end Sys2Proof.Proofs.StepStart
end

section
/-! PROOFS of the family other: the setting of a bank's latch (R47, R51 to R54, R115, R116, R118): what one actuator of the bank
does, and what it leaves alone. -/

namespace Sys2Proof.Proofs.LatchSetting

open Sys2Proof.Machine Sys2Proof.Safety Sys2Proof.Proofs.LaneRequests Sys2Proof.Proofs.LaneResults
open Sys2Proof.Proofs.StepResults Sys2Proof.Proofs.QueueAndPool Sys2Proof.Proofs.HeartLaws Sys2Proof.Proofs.Arbiter

/-! ## One actuator of the bank (R116) -/

section

variable {v : View} {x : Actuator}

theorem latchSet_skipped (h : x.managed = false ∨ x.state = .faulted ∨ x.state = .off) : x.latchSet v = x.silent :=
  if_pos (by obtain h | h | h := h <;> simp [h])

/-- A managed actuator that is neither OFF nor FAULTED: the setting of the latch acts on it. -/
structure Live (x : Actuator) : Prop where
  managed : x.managed = true
  off : x.state ≠ .off
  faulted : x.state ≠ .faulted

/-- An actuator that nobody owns and that does not move: no lane has anything to do with it. -/
structure Quiet (x : Actuator) : Prop where
  moving : x.moving = false
  owner : x.owner = .none

theorem Live.rest (h : Live x) (hm : x.moving = false) : x.state = .rest := by
  obtain ⟨_, hoff, hf⟩ := h
  unfold Actuator.moving at hm
  cases hs : x.state <;> simp_all

theorem latchSet_faults (hl : Live x) (h : x.moving = true ∨ x.owner ≠ .none) : x.latchSet v = x.faultWith v .drive := by
  unfold Actuator.latchSet
  rw [if_neg (by simp [hl.managed, hl.off, hl.faulted]), if_pos (by simpa using h)]

/-- An actuator at rest under a latch that is set: coils off, its position unknown. -/
def unlatchedRest (x : Actuator) : Actuator := { x.coilsOff with position := .u, supervised := false }

theorem latchSet_rests (hl : Live x) (hq : Quiet x) : x.latchSet v = (unlatchedRest x).silent := by
  unfold Actuator.latchSet
  rw [if_neg (by simp [hl.managed, hl.off, hl.faulted]), if_neg (by simp [hq.moving, hq.owner])]
  rfl

theorem unlatchedRest_fields (x : Actuator) : ∃ la lb p,
    unlatchedRest x = { x with lineA := la, lineB := lb, pulse := p, position := .u, supervised := false } := by
  obtain ⟨la, lb, p, h⟩ := coilsOff_fields x
  unfold unlatchedRest
  rw [h]
  exact ⟨_, _, _, rfl⟩

theorem unlatchedRest_quiet (h : Quiet x) : Quiet (unlatchedRest x) := by
  obtain ⟨_, _, _, heq⟩ := unlatchedRest_fields x
  rw [heq]
  exact ⟨h.moving, h.owner⟩

/-- The coils that the setting of the latch leaves (R116). -/
theorem unlatchedRest_coils (hm : x.managed = true) : (unlatchedRest x).lineA = false ∧
    (x.cfg.kind.double = true → (unlatchedRest x).lineB = false) ∧ (unlatchedRest x).pulse = none := by
  unfold unlatchedRest
  rw [coilsOff_eq]
  unfold coilsUnder
  refine ⟨?_, fun hd => ?_, ?_⟩ <;> simp [hm]
  exact fun _ => hd

theorem FaultedWith.quiet {now : Time} {c : ActFault} {y : Actuator} (h : FaultedWith now c x y) : Quiet y :=
  ⟨by simp [Actuator.moving, h.state], h.owner⟩

end

/-! ## What a lane does to an actuator as it acts on its results -/

/-- The actuator `x` has been left alone as `y`, given up, or stopped. -/
structure Eased (x y : Actuator) : Prop where
  cfg : y.cfg = x.cfg
  state : y.state = x.state ∨ x.moving = true ∧ y.state = .rest
  owner : y.owner = x.owner ∨ y.owner = .none
  quiet : Quiet x → y = x

theorem Eased.refl (x : Actuator) : Eased x x := ⟨rfl, .inl rfl, .inl rfl, fun _ => rfl⟩

theorem Eased.trans {x y z : Actuator} (hxy : Eased x y) (hyz : Eased y z) : Eased x z := by
  refine ⟨hyz.cfg.trans hxy.cfg, ?_, ?_, fun h => ?_⟩
  · obtain hz | ⟨hmoving, hz⟩ := hyz.state
    · exact hxy.state.imp hz.trans fun h => ⟨h.1, hz.trans h.2⟩
    · obtain hy | ⟨_, hy⟩ := hxy.state
      · exact .inr ⟨by rwa [Actuator.moving, hy] at hmoving, hz⟩
      · simp [Actuator.moving, hy] at hmoving
  · obtain hz | hz := hyz.owner
    · exact hxy.owner.imp hz.trans hz.trans
    · exact .inr hz
  · have hy := hxy.quiet h
    rw [hyz.quiet (hy ▸ h), hy]

theorem Eased.live {x y : Actuator} (h : Eased x y) (hl : Live x) : Live y := by
  refine ⟨by rw [Actuator.managed, h.cfg]; exact hl.managed, ?_, ?_⟩ <;> obtain hs | ⟨_, hs⟩ := h.state <;> rw [hs]
  · exact hl.off
  · exact ActState.noConfusion
  · exact hl.faulted
  · exact ActState.noConfusion

theorem released_eased (x : Actuator) : Eased x { x with owner := .none } :=
  ⟨rfl, .inl rfl, .inr rfl, fun h => by rw [← h.owner]⟩

theorem stoppedBy_cfg (v : View) (c : Machine.Action) (x : Actuator) : (stoppedBy v c x).cfg = x.cfg := by
  obtain ⟨la, lb, p, hcoils⟩ := applyAction_fields c x
  rw [applyAction_eq] at hcoils
  unfold stoppedBy
  rw [hcoils]
  obtain ⟨pos, sup, htracked⟩ := tracked_fields v { x with
    lineA := la, lineB := lb, pulse := p, state := .rest, target := none, owner := .none, entryTime := v.time
    gapTimer := none, travelTimer := none, settleTimer := none }
  rw [htracked]

theorem stop_eased (v : View) (x : Actuator) : Eased x (x.stop v) := by
  by_cases hm : x.moving = true
  · rw [stop_of_moving hm]
    obtain ⟨hstate, howner, _⟩ := stoppedBy_rests v x.cfg.stopAction x
    exact ⟨stoppedBy_cfg .., .inr ⟨hm, hstate⟩, .inr howner, fun h => absurd (h.moving.symm.trans hm) (by decide)⟩
  · rw [stop_rest _ _ (Bool.eq_false_iff.mpr hm)]
    exact .refl x

theorem abortedAct_eased (v : View) (l : LaneIx) (h : Machine.Step) (b : ActIx) (x : Actuator) :
    Eased x (abortedAct v l h b x) := by
  obtain ⟨y, hy, heq⟩ : ∃ y, Eased x y ∧ abortedAct v l h b x =
      if (∃ mv ∈ h.moves, mv.act = b) ∧ y.owner = .lane l then { y with owner := .none } else y := by
    by_cases hp : (b, MoveResult.pending) ∈ h.results
    · exact ⟨_, stop_eased v x, by simp only [abortedAct, hp, if_true]⟩
    · exact ⟨_, .refl x, by simp only [abortedAct, hp, if_false]⟩
  rw [heq]
  split
  · exact hy.trans (released_eased y)
  · exact hy

theorem actOnResults_eased (v : Env) (l : LaneIx) (e : Event) (b : ActIx) :
    Eased (e.m.act b) ((e.actOnResults v l).m.act b) := by
  obtain heq | ⟨h, rest, _, _, ⟨_, hf⟩ | ⟨_, hc⟩⟩ := actOnResults_cases v l e
  · rw [heq]
    exact .refl _
  · rw [hf.act]
    split
    · exact .refl _
    · exact abortedAct_eased ..
  · rw [hc.act]
    split
    · exact released_eased _
    · exact .refl _

/-- A lane that is still RUNNING when it has acted runs the step it ran. -/
theorem actOnResults_running {v : Env} {l : LaneIx} {e : Event} {h : Machine.Step} {rest : List Machine.Step}
    (hs : (e.m.lane l).steps = h :: rest) (hr : ((e.actOnResults v l).m.lane l).state = .running) :
    ((e.actOnResults v l).m.lane l).steps = h :: rest := by
  obtain heq | ⟨g, grest, _, hg, ⟨_, hf⟩ | ⟨_, hc⟩⟩ := actOnResults_cases v l e
  · rw [heq]
    exact hs
  · obtain ⟨rfl, rfl⟩ := List.cons.inj (hs.symm.trans hg)
    rw [hf.lane] at hr ⊢
    by_cases hon : RunsOn (e.m.lane l).policy h
    · rw [laneWithFailure_runs_on hs hon]
      exact hs
    · exfalso
      unfold laneWithFailure at hr
      split at hr
      · next hp =>
        split at hr
        · next hpolicy => exact hon ⟨hpolicy, hp⟩
        · cases hr
      · cases hr
  · rw [hc.lane] at hr
    exact absurd hr (completedLane_not_running _ _ _ _)

/-! ## One step of the setting -/

section

variable (v : Env) (c : ActIx) (e : Event)

/-- The setting of the latch on one actuator. -/
def latchOne : Event := e.act v c Actuator.latchSet

theorem takeReport_act (a b : ActIx) (r : Report) (e : Event) : (e.takeReport a r).m.act b = e.m.act b := by
  cases r with
  | quiet => rfl
  | done o =>
    cases o with
    | lane l => exact record_act ..
    | none | jog | safe => rfl
  | failed o c =>
    cases o with
    | lane l => exact record_act l a b .failed (e.raise (actFaultNotice a c))
    | none | jog | safe => rfl

/-- An actuator that acts can only ease another one. -/
theorem act_eased {b : ActIx} (hb : b ≠ c) (f : View → Actuator → ActOut) : Eased (e.m.act b) ((e.act v c f).m.act b) := by
  have htaken : ∀ x r, ((e.setAct c x).takeReport c r).m.act b = e.m.act b := fun x r =>
    (takeReport_act ..).trans (act_setAct_ne _ _ _ _ hb)
  unfold Event.act
  dsimp only
  split
  · rw [htaken]
    exact .refl _
  · next l _ =>
    have heased := actOnResults_eased v l
      ((e.setAct c (f (v.view c) (e.m.act c)).act).takeReport c (f (v.view c) (e.m.act c)).report) b
    rwa [htaken] at heased

theorem takeReport_raised (a : ActIx) (r : Report) (e : Event) : ∃ more, (e.takeReport a r).raised = e.raised ++ more := by
  cases r with
  | quiet => exact ⟨[], (List.append_nil _).symm⟩
  | done o =>
    cases o with
    | lane l => exact (record_frame l a .done e).raised
    | none | safe => exact ⟨[], (List.append_nil _).symm⟩
    | jog => exact ⟨_, rfl⟩
  | failed o c =>
    obtain ⟨more, h⟩ := takeReport_failed a o c e
    exact ⟨_, h⟩

/-- What has been raised stays raised. -/
theorem mem_act_raised {n : Raised} (hn : n ∈ e.raised) (f : View → Actuator → ActOut) : n ∈ (e.act v c f).raised := by
  obtain ⟨_, more, hmore⟩ := act_raised v c f e
  obtain ⟨before, hbefore⟩ := takeReport_raised c (f (v.view c) (e.m.act c)).report
    (e.setAct c (f (v.view c) (e.m.act c)).act)
  rw [hmore, hbefore]
  exact List.mem_append_left _ (List.mem_append_left _ hn)

theorem record_no_head {l : LaneIx} {e : Event} (hs : (e.m.lane l).steps = []) (a : ActIx) (r : MoveResult) :
    e.record l a r = e := by
  unfold Event.record
  rw [mapHead_nil _ _ hs]
  split
  · exact Event.ext_parts (setLane_lane e.m l) rfl rfl
  · rfl

theorem actOnResults_no_head {l : LaneIx} {e : Event} (hs : (e.m.lane l).steps = []) (v : Env) :
    e.actOnResults v l = e := by
  unfold Event.actOnResults
  rw [hs]
  dsimp only
  split <;> rfl

/-- A fault that no RUNNING step hears of changes its actuator alone. -/
theorem act_faults_alone {f : View → Actuator → ActOut} {x : Actuator} {o : Owner} {code : ActFault}
    (hf : f (v.view c) (e.m.act c) = { act := x, report := .failed o code })
    (hidle : ∀ l, o = .lane l → (e.m.lane l).state = .running → (e.m.lane l).steps = []) :
    e.act v c f = { m := e.m.setAct c x, raised := e.raised ++ [actFaultNotice c code], started := e.started } := by
  by_cases hrun : ∃ l, o = .lane l ∧ (e.m.lane l).state = .running
  · obtain ⟨l, rfl, hr⟩ := hrun
    have hs := hidle l rfl hr
    have htaken : (e.setAct c x).takeReport c (.failed (.lane l) code) = (e.setAct c x).raise (actFaultNotice c code) :=
      record_no_head (e := (e.setAct c x).raise (actFaultNotice c code)) hs c .failed
    unfold Event.act
    simp only [hf, htaken]
    exact actOnResults_no_head (e := (e.setAct c x).raise (actFaultNotice c code)) hs v
  · have halone := act_alone v c f e fun l hl hr => hrun ⟨l, ?_, hr⟩
    · rw [halone, hf]
      rfl
    · rw [hf] at hl
      cases o with
      | lane j => exact congrArg Owner.lane (Option.some.inj hl)
      | none | jog | safe => cases hl

/-- What the setting of the latch does to one actuator, seen from the rest of the part: the actuator alone changes, or the lane
that owns it records its failure and acts on it. -/
theorem latchOne_cases :
    ((∃ notes, latchOne v c e =
      { m := e.m.setAct c ((e.m.act c).latchSet (v.view c)).act, raised := e.raised ++ notes, started := e.started }) ∨
      ∃ j g gs, (e.m.act c).owner = .lane j ∧ (e.m.lane j).state = .running ∧ (e.m.lane j).steps = g :: gs ∧
        latchOne v c e = (reported j c ((e.m.act c).latchSet (v.view c)).act (failedAt c g) gs
          [actFaultNotice c .drive] e).actOnResults v j) := by
  by_cases hl : Live (e.m.act c)
  · by_cases hq : Quiet (e.m.act c)
    · have hquiet : ((e.m.act c).latchSet (v.view c)).report = .quiet := by rw [latchSet_rests hl hq]; rfl
      refine .inl ⟨_, act_alone v c Actuator.latchSet e fun l h => ?_⟩
      rw [hquiet] at h
      cases h
    · have hfaults := latchSet_faults (v := v.view c) hl (by
        by_contra hno
        simp only [not_or, Bool.not_eq_true, not_not] at hno
        exact hq ⟨hno.1, hno.2⟩)
      have hout : (e.m.act c).latchSet (v.view c) =
          { act := ((e.m.act c).latchSet (v.view c)).act, report := .failed (e.m.act c).owner .drive } := by
        rw [hfaults]
        rfl
      by_cases hhead : ∃ j g gs, (e.m.act c).owner = .lane j ∧ (e.m.lane j).state = .running ∧
          (e.m.lane j).steps = g :: gs
      · obtain ⟨j, g, gs, ho, hr, hs⟩ := hhead
        rw [ho] at hout
        exact .inr ⟨j, g, gs, ho, hr, hs, act_failed hr hs hout⟩
      · refine .inl ⟨_, act_faults_alone v c e hout fun l ho hr => ?_⟩
        cases hs : (e.m.lane l).steps with
        | nil => rfl
        | cons g gs => exact absurd ⟨l, g, gs, ho, hr, hs⟩ hhead
  · have hskipped : (e.m.act c).latchSet (v.view c) = (e.m.act c).silent := latchSet_skipped (by
      by_contra hno
      simp only [not_or, Bool.not_eq_false] at hno
      exact hl ⟨hno.1, hno.2.2, hno.2.1⟩)
    refine .inl ⟨_, act_alone v c Actuator.latchSet e fun l h => ?_⟩
    rw [hskipped] at h
    cases h

end

/-! ## What the setting leaves of its own actuator -/

section

variable {v : Env} {c : ActIx} {e : Event}

theorem latchOne_skipped (h : (e.m.act c).managed = false ∨ (e.m.act c).state = .faulted ∨ (e.m.act c).state = .off) :
    (latchOne v c e).m.act c = e.m.act c := by
  have hskipped := latchSet_skipped (v := v.view c) h
  have halone := act_alone v c Actuator.latchSet e fun l hl => by
    rw [hskipped] at hl
    cases hl
  unfold latchOne
  rw [halone, hskipped]
  exact act_setAct_self ..

theorem latchOne_rests (hl : Live (e.m.act c)) (hq : Quiet (e.m.act c)) :
    latchOne v c e = { e with m := e.m.setAct c (unlatchedRest (e.m.act c)) } := by
  have hrests := latchSet_rests (v := v.view c) hl hq
  have halone := act_alone v c Actuator.latchSet e fun l h => by
    rw [hrests] at h
    cases h
  unfold latchOne
  rw [halone, hrests]
  exact Event.ext_parts rfl (List.append_nil _) rfl

theorem latchOne_faults (hl : Live (e.m.act c)) (h : (e.m.act c).moving = true ∨ (e.m.act c).owner ≠ .none) :
    FaultedWith v.time .drive (e.m.act c) ((latchOne v c e).m.act c) ∧
      actFaultNotice c .drive ∈ (latchOne v c e).raised :=
  act_faults v c Actuator.latchSet e (e.m.act c) .drive (latchSet_faults hl h)

/-- The setting leaves its actuator unmoving and unowned (R116). -/
theorem latchOne_quiet (hl : Live (e.m.act c)) : Quiet ((latchOne v c e).m.act c) := by
  by_cases hq : Quiet (e.m.act c)
  · rw [latchOne_rests hl hq]
    exact (act_setAct_self e.m c _).symm ▸ unlatchedRest_quiet hq
  · refine FaultedWith.quiet (latchOne_faults hl ?_).1
    by_contra hno
    simp only [not_or, Bool.not_eq_true, not_not] at hno
    exact hq ⟨hno.1, hno.2⟩

/-- The setting gives no actuator an owner. -/
theorem latchOne_owner {b : ActIx} {o : Owner} (ho : ((latchOne v c e).m.act b).owner = o) (hne : o ≠ .none) :
    (e.m.act b).owner = o := by
  by_cases hb : b = c
  · subst hb
    by_cases hl : Live (e.m.act b)
    · exact absurd (ho.symm.trans (latchOne_quiet hl).owner) hne
    · rw [latchOne_skipped] at ho
      · exact ho
      · by_contra hno
        simp only [not_or, Bool.not_eq_false] at hno
        exact hl ⟨hno.1, hno.2.2, hno.2.1⟩
  · obtain h | h := (act_eased v c e hb Actuator.latchSet).owner
    · exact h.symm.trans ho
    · exact absurd (ho.symm.trans h) hne

/-- The setting on an actuator of a RUNNING lane that has a result for it: the lane takes the failure (R51 to R54). -/
theorem latchOne_reported {l : LaneIx} {h : Machine.Step} {rest : List Machine.Step} (hl : Live (e.m.act c))
    (ho : (e.m.act c).owner = .lane l) (hr : (e.m.lane l).state = .running) (hs : (e.m.lane l).steps = h :: rest)
    (hresult : ∃ r, (c, r) ∈ h.results) : ∃ x, FaultedWith v.time .drive (e.m.act c) x ∧
      FailureReported v l c x h rest [actFaultNotice c .drive] e (latchOne v c e) := by
  have hfaults := latchSet_faults (v := v.view c) hl (.inr (by rw [ho]; exact Owner.noConfusion))
  have hspec := (faultWith_spec (v.view c) .drive (e.m.act c)).1
  have hout : (e.m.act c).latchSet (v.view c) =
      { act := ((e.m.act c).faultWith (v.view c) .drive).act, report := .failed (.lane l) .drive } := by
    rw [hfaults, ← ho]
    rfl
  refine ⟨_, hspec, ?_⟩
  unfold latchOne
  rw [act_failed hr hs hout]
  exact reported_failed hr hresult (by rw [hspec.owner]; exact Owner.noConfusion) _ v

end

end Sys2Proof.Proofs.LatchSetting
end

section
/-! PROOFS of the family other: a driver fault sets the latch of its bank (R51 to R54, R115, R116, R118). -/

namespace Sys2Proof.Proofs.DriverFault

open Sys2Proof.Machine Sys2Proof.Safety Sys2Proof.Proofs.LaneRequests Sys2Proof.Proofs.LaneResults
open Sys2Proof.Proofs.StepResults Sys2Proof.Proofs.HeartLaws Sys2Proof.Proofs.Arbiter Sys2Proof.Proofs.LatchSetting
open Sys2Proof.Proofs.StepStart Sys2Proof.Proofs.LinesAndBanks

/-! ## The setting on several actuators -/

/-- The setting of the latch on the actuators of a list, one after the other. -/
def latchAll (v : Env) (xs : List ActIx) (e : Event) : Event := xs.foldl (fun e a => latchOne v a e) e

theorem latchAll_cons (v : Env) (a : ActIx) (xs : List ActIx) (e : Event) :
    latchAll v (a :: xs) e = latchAll v xs (latchOne v a e) := rfl

theorem latchAll_append (v : Env) (xs ys : List ActIx) (e : Event) :
    latchAll v (xs ++ ys) e = latchAll v ys (latchAll v xs e) := List.foldl_append ..

section

variable {v : Env}

theorem latchAll_eased {b : ActIx} (xs : List ActIx) (hb : b ∉ xs) :
    ∀ e : Event, Eased (e.m.act b) ((latchAll v xs e).m.act b) := by
  induction xs with
  | nil => exact fun e => .refl _
  | cons a xs ih =>
    rw [List.mem_cons, not_or] at hb
    exact fun e => (act_eased v a e hb.1 Actuator.latchSet).trans (ih hb.2 _)

theorem mem_latchAll_raised {n : Raised} (xs : List ActIx) : ∀ e : Event, n ∈ e.raised → n ∈ (latchAll v xs e).raised := by
  induction xs with
  | nil => exact fun _ h => h
  | cons a xs ih => exact fun e h => ih _ (mem_act_raised v a e h Actuator.latchSet)

theorem latchAll_started (xs : List ActIx) : ∀ e : Event, (latchAll v xs e).started = e.started := by
  induction xs with
  | nil => exact fun _ => rfl
  | cons a xs ih => exact fun e => (ih _).trans (act_raised v a Actuator.latchSet e).1

/-- What becomes of an actuator in the setting of a latch, seen from its own turn. -/
theorem latchAll_at {a : ActIx} {pre post : List ActIx} (hnodup : (pre ++ a :: post).Nodup) (e : Event) :
    ∃ f, Eased (e.m.act a) (f.m.act a) ∧
      (Quiet ((latchOne v a f).m.act a) → (latchAll v (pre ++ a :: post) e).m.act a = (latchOne v a f).m.act a) := by
  obtain ⟨_, hrest, hdisjoint⟩ := List.nodup_append.mp hnodup
  have hpre : a ∉ pre := fun h => hdisjoint a h a (List.mem_cons_self ..) rfl
  refine ⟨latchAll v pre e, latchAll_eased pre hpre e, fun hq => ?_⟩
  rw [latchAll_append, latchAll_cons]
  exact (latchAll_eased post (List.nodup_cons.mp hrest).1 _).quiet hq

variable {k : BankIx} {a : ActIx} {e : Event}

theorem bankActs_split (h : bankOf a = k) : ∃ pre post, bankActs k = pre ++ a :: post :=
  List.append_of_mem (mem_bankActs.mpr h)

/-- No managed actuator of the bank is left moving or owned. -/
theorem latchAll_quiet (h : bankOf a = k) (hl : Live (e.m.act a)) : Quiet ((latchAll v (bankActs k) e).m.act a) := by
  obtain ⟨pre, post, hsplit⟩ := bankActs_split h
  obtain ⟨f, heased, hlast⟩ := latchAll_at (v := v) (hsplit ▸ bankActs_nodup k) e
  have hquiet := latchOne_quiet (v := v) (heased.live hl)
  rw [hsplit, hlast hquiet]
  exact hquiet

/-- An unowned actuator at rest in the bank loses its coils, its position and its supervision. -/
theorem latchAll_rests (h : bankOf a = k) (hl : Live (e.m.act a)) (hq : Quiet (e.m.act a)) :
    (latchAll v (bankActs k) e).m.act a = unlatchedRest (e.m.act a) := by
  obtain ⟨pre, post, hsplit⟩ := bankActs_split h
  obtain ⟨f, heased, hlast⟩ := latchAll_at (v := v) (hsplit ▸ bankActs_nodup k) e
  have hsame := heased.quiet hq
  rw [hsplit, hlast (latchOne_quiet (heased.live hl)), latchOne_rests (by rw [hsame]; exact hl) (by rw [hsame]; exact hq),
    hsame]
  exact act_setAct_self ..

/-- An unowned actuator that is OFF or FAULTED is left as it was. -/
theorem latchAll_skipped (h : bankOf a = k) (hs : (e.m.act a).state = .off ∨ (e.m.act a).state = .faulted)
    (ho : (e.m.act a).owner = .none) : (latchAll v (bankActs k) e).m.act a = e.m.act a := by
  have hq : Quiet (e.m.act a) := ⟨by obtain hs | hs := hs <;> simp [Actuator.moving, hs], ho⟩
  obtain ⟨pre, post, hsplit⟩ := bankActs_split h
  obtain ⟨f, heased, hlast⟩ := latchAll_at (v := v) (hsplit ▸ bankActs_nodup k) e
  have hsame := heased.quiet hq
  have hskipped : (latchOne v a f).m.act a = f.m.act a := latchOne_skipped (by rw [hsame]; exact .inr hs.symm)
  rw [hsplit, hlast (by rw [hskipped, hsame]; exact hq), hskipped, hsame]

/-- Where no lane runs, every moving or owned actuator of the bank faults DRIVE. -/
theorem latchAll_faults (h : bankOf a = k) (hrun : ∀ l, (e.m.lane l).state ≠ .running) (hl : Live (e.m.act a))
    (hbusy : (e.m.act a).moving = true ∨ (e.m.act a).owner ≠ .none) :
    FaultedWith v.time .drive (e.m.act a) ((latchAll v (bankActs k) e).m.act a) ∧
      actFaultNotice a .drive ∈ (latchAll v (bankActs k) e).raised := by
  have hmem : a ∈ bankActs k := mem_bankActs.mpr h
  obtain ⟨hacts, _, _, _, _, _, hraised⟩ :=
    foldl_act v Actuator.latchSet (bankActs k) (bankActs_nodup k) e fun _ _ l _ => hrun l
  have hfaults := latchSet_faults (v := v.view a) hl hbusy
  obtain ⟨hspec, hreport⟩ := faultWith_spec (v.view a) .drive (e.m.act a)
  refine ⟨?_, ?_⟩
  · have hact := hacts a
    rw [if_pos hmem, hfaults] at hact
    exact hact.symm ▸ hspec
  · have hnotice : actFaultNotice a .drive ∈ ownNotices a ((e.m.act a).latchSet (v.view a)) := by
      unfold ownNotices
      rw [hfaults, hreport]
      exact List.mem_singleton_self _
    refine Eq.subst (motive := fun ns => actFaultNotice a .drive ∈ ns) hraised.symm ?_
    exact List.mem_append_right _ (List.mem_flatMap.mpr ⟨a, hmem, hnotice⟩)

end

/-! ## A lane with actuators in the bank -/

/-- In bank `k` lane `l` owns none but the actuators `A`, and no other RUNNING step names one of them. -/
structure Apart (k : BankIx) (l : LaneIx) (A : ActIx → Prop) (e : Event) : Prop where
  owners : ∀ c, bankOf c = k → ¬ A c → (e.m.act c).owner ≠ .lane l
  heads : ∀ j g gs, j ≠ l → (e.m.lane j).state = .running → (e.m.lane j).steps = g :: gs →
    (∀ p ∈ g.results, ¬ A p.1) ∧ ∀ mv ∈ g.moves, ¬ A mv.act

section

variable {v : Env} {k : BankIx} {l : LaneIx} {A : ActIx → Prop} {c : ActIx} {e : Event}

theorem Apart.owners_kept (h : Apart k l A e) :
    ∀ c', bankOf c' = k → ¬ A c' → ((latchOne v c e).m.act c').owner ≠ .lane l := fun c' hk hA ho =>
  h.owners c' hk hA (latchOne_owner ho Owner.noConfusion)

theorem Apart.of_lanes (h : Apart k l A e) (hlanes : ∀ j, j ≠ l → (latchOne v c e).m.lane j = e.m.lane j) :
    Apart k l A (latchOne v c e) :=
  ⟨h.owners_kept, fun j g gs hj hr hs => h.heads j g gs hj (by rwa [← hlanes j hj]) (by rwa [← hlanes j hj])⟩

/-- The setting on an actuator that lane `l` does not own leaves the lane and its actuators alone. -/
theorem Apart.step (h : Apart k l A e) (hk : bankOf c = k) (hA : ¬ A c) :
    Apart k l A (latchOne v c e) ∧ (latchOne v c e).m.lane l = e.m.lane l ∧
      ∀ a, A a → (latchOne v c e).m.act a = e.m.act a := by
  have hne : ∀ a, A a → a ≠ c := fun a ha he => hA (he ▸ ha)
  obtain ⟨notes, heq⟩ | ⟨j, g, gs, ho, hr, hs, heq⟩ := latchOne_cases v c e
  · refine ⟨h.of_lanes fun j _ => ?_, ?_, fun a ha => ?_⟩ <;> rw [heq]
    · rfl
    · rfl
    · exact act_setAct_ne _ _ _ _ (hne a ha)
  · have hj : j ≠ l := fun he => h.owners c hk hA (he ▸ ho)
    obtain ⟨hresults, hmoves⟩ := h.heads j g gs hj hr hs
    obtain ⟨f, hf⟩ : ∃ f, f = reported j c ((e.m.act c).latchSet (v.view c)).act (failedAt c g) gs
      [actFaultNotice c .drive] e := ⟨_, rfl⟩
    have hlane : (f.m.lane j).steps = failedAt c g :: gs := by rw [hf, lane_reported]
    have hnames : ∀ p ∈ (failedAt c g).results, ¬ A p.1 := fun p hp => by
      obtain ⟨q, hq, rfl⟩ := List.mem_map.mp hp
      by_cases hqc : q.1 = c
      · rw [if_pos hqc]
        exact hA
      · rw [if_neg hqc]
        exact hresults q hq
    have hframe := actOnResults_frame v j f
    rw [← hf] at heq
    have hothers : ∀ i, i ≠ j → (latchOne v c e).m.lane i = e.m.lane i := fun i hi => by
      rw [heq, hframe.lanes i hi, hf]
      exact lane_reported_ne hi _
    refine ⟨⟨h.owners_kept, fun i g' gs' hi hri hsi => ?_⟩, hothers l hj.symm, fun a ha => ?_⟩
    · by_cases hij : i = j
      · subst hij
        rw [heq] at hri hsi
        obtain ⟨rfl, _⟩ := List.cons.inj ((actOnResults_running hlane hri).symm.trans hsi)
        exact ⟨hnames, hmoves⟩
      · rw [hothers i hij] at hri hsi
        exact h.heads i g' gs' hi hri hsi
    · rw [heq, actOnResults_act hlane (fun mv hmv he => hmoves mv hmv (he ▸ ha)) (fun p hp he => hnames p hp (he ▸ ha)), hf]
      exact act_reported_ne (hne a ha) _

theorem Apart.steps (xs : List ActIx) : ∀ e : Event, Apart k l A e → (∀ c ∈ xs, bankOf c = k ∧ ¬ A c) →
    Apart k l A (latchAll v xs e) ∧ (latchAll v xs e).m.lane l = e.m.lane l ∧
      ∀ a, A a → (latchAll v xs e).m.act a = e.m.act a := by
  induction xs with
  | nil => exact fun e h _ => ⟨h, rfl, fun _ _ => rfl⟩
  | cons c xs ih =>
    intro e h hxs
    obtain ⟨⟨hk, hA⟩, hrest⟩ := List.forall_mem_cons.mp hxs
    obtain ⟨hstep, hlane, hacts⟩ := h.step (v := v) hk hA
    obtain ⟨hall, hlane', hacts'⟩ := ih _ hstep hrest
    exact ⟨hall, hlane'.trans hlane, fun a ha => (hacts' a ha).trans (hacts a ha)⟩

end

/-! ## The failure of a RUNNING step (R51 to R54) -/

section

variable {v : Env} {k : BankIx} {l : LaneIx} {a b : ActIx} {e : Event} {h : Machine.Step} {rest : List Machine.Step}

/-- A lane that a failure leaves FAULTED did not run on. -/
theorem not_runsOn_of_faulted {ln : Lane} {g : Machine.Step} (hr : ln.state = .running)
    (hf : (laneWithFailure g rest ln).state = .faulted) : ¬ RunsOn ln.policy g := fun hon => by
  rw [laneWithFailure_of_runsOn rfl hon] at hf
  exact LaneState.noConfusion (hr.symm.trans hf)

theorem FailureReported.mem_notes {x : Actuator} {notes : List Raised} {e' : Event} {n : Raised}
    (hf : FailureReported v l a x h rest notes e e') (hn : n ∈ notes) : n ∈ e'.raised := by
  rw [hf.raised]
  exact List.mem_append_left _ (List.mem_append_right _ hn)

theorem FailureReported.mem_failNotice {x : Actuator} {notes : List Raised} {e' : Event}
    (hf : FailureReported v l a x h rest notes e e') (hstops : ¬ RunsOn (e.m.lane l).policy (failedAt a h)) :
    failNotice l h ∈ e'.raised := by
  rw [hf.raised, if_neg hstops]
  exact List.mem_append_right _ (List.mem_singleton_self _)

/-- The setting on an actuator of `A` that lane `l` owns. -/
theorem Apart.own {A : ActIx → Prop} {x : Actuator} {notes : List Raised} (hapart : Apart k l A e)
    (hf : FailureReported v l a x h rest notes e (latchOne v a e)) : Apart k l A (latchOne v a e) :=
  hapart.of_lanes hf.others

/-- A RUNNING lane with one actuator in the bank takes its failure (R116). -/
theorem latchAll_one (hk : bankOf a = k) (hl : Live (e.m.act a)) (ho : (e.m.act a).owner = .lane l)
    (hr : (e.m.lane l).state = .running) (hs : (e.m.lane l).steps = h :: rest) (hresult : ∃ r, (a, r) ∈ h.results)
    (hapart : Apart k l (· = a) e) :
    FaultedWith v.time .drive (e.m.act a) ((latchAll v (bankActs k) e).m.act a) ∧
      actFaultNotice a .drive ∈ (latchAll v (bankActs k) e).raised ∧
      (latchAll v (bankActs k) e).m.lane l = laneWithFailure (failedAt a h) rest (e.m.lane l) ∧
      (((latchAll v (bankActs k) e).m.lane l).state = .faulted →
        failNotice l h ∈ (latchAll v (bankActs k) e).raised) := by
  obtain ⟨pre, post, hsplit⟩ := bankActs_split hk
  have hnodup : (pre ++ a :: post).Nodup := hsplit ▸ bankActs_nodup k
  have hbank : ∀ c ∈ pre ++ a :: post, bankOf c = k := fun c hc => mem_bankActs.mp (hsplit ▸ hc)
  obtain ⟨_, hrest, hdisjoint⟩ := List.nodup_append.mp hnodup
  obtain ⟨hapart1, hlane1, hacts1⟩ := Apart.steps (v := v) pre e hapart fun c hc =>
    ⟨hbank c (List.mem_append_left _ hc), hdisjoint c hc a (List.mem_cons_self ..)⟩
  rw [hsplit, latchAll_append, latchAll_cons]
  generalize latchAll v pre e = f at hapart1 hlane1 hacts1
  have hact1 := hacts1 a rfl
  rw [← hact1] at hl ho ⊢
  rw [← hlane1] at hr hs ⊢
  obtain ⟨x, hx, hfailure⟩ := latchOne_reported (v := v) hl ho hr hs hresult
  obtain ⟨_, hlane3, hacts3⟩ := Apart.steps (v := v) post (latchOne v a f) (hapart1.own hfailure) fun c hc =>
    ⟨hbank c (List.mem_append_right _ (List.mem_cons_of_mem _ hc)), fun he => (List.nodup_cons.mp hrest).1 (he ▸ hc)⟩
  rw [hacts3 a rfl, hlane3, hfailure.self, hfailure.lane]
  exact ⟨hx, mem_latchAll_raised post _ (FailureReported.mem_notes hfailure (List.mem_singleton_self _)), rfl, fun hfaulted =>
    mem_latchAll_raised post _ (FailureReported.mem_failNotice hfailure (not_runsOn_of_faulted hr hfaulted))⟩

/-- The actuators of a bank are taken lowest index first. -/
theorem bankActs_split_two (ha : bankOf a = k) (hb : bankOf b = k) (hlt : a < b) :
    ∃ pre mid post, bankActs k = pre ++ a :: (mid ++ b :: post) := by
  obtain ⟨pre, post, hsplit⟩ := bankActs_split ha
  have hsorted : (bankActs k).Pairwise (· < ·) := (List.pairwise_lt_finRange 16).filter _
  rw [hsplit, List.pairwise_append] at hsorted
  have hmem : b ∈ pre ++ a :: post := hsplit ▸ mem_bankActs.mpr hb
  obtain hpre | hpost := List.mem_append.mp hmem
  · exact absurd hlt (lt_asymm (hsorted.2.2 b hpre a (List.mem_cons_self ..)))
  · obtain rfl | hpost := List.mem_cons.mp hpost
    · exact absurd hlt (lt_irrefl _)
    · obtain ⟨mid, post', rfl⟩ := List.append_of_mem hpost
      exact ⟨pre, mid, post', hsplit⟩

/-- An actuator of a step that has failed rests, unowned, its failure not its own (R52, R54). -/
theorem abortedAct_rests {x : Actuator} {g : Machine.Step} (hmv : ∃ mv ∈ g.moves, mv.act = b) (ho : x.owner = .lane l)
    (hst : x.state = .rest ∨ x.moving = true) (hp : x.moving = true ↔ (b, MoveResult.pending) ∈ g.results) (w : View) :
    (abortedAct w l g b x).state = .rest ∧ (abortedAct w l g b x).owner = .none ∧ (abortedAct w l g b x).cfg = x.cfg := by
  by_cases hm : x.moving = true
  · rw [abortedAct_pending (hp.mp hm) hm]
    obtain ⟨hstate, howner, _⟩ := stoppedBy_rests w x.cfg.stopAction x
    exact ⟨hstate, howner, stoppedBy_cfg ..⟩
  · rw [abortedAct_settled (fun h => hm (hp.mpr h)) hmv, if_pos ho]
    exact ⟨hst.resolve_right hm, rfl, rfl⟩

/-- What the setting makes of two actuators `a < b` of one RUNNING lane: the lower is its first failure, and the higher faults
too where the lane runs on, else it is stopped or given up, and rests. -/
structure TwoLatched (v : Env) (l : LaneIx) (a b : ActIx) (h : Machine.Step) (rest : List Machine.Step) (e e' : Event) :
    Prop where
  lower : FaultedWith v.time .drive (e.m.act a) (e'.m.act a)
  notice : actFaultNotice a .drive ∈ e'.raised
  laneFault : (e'.m.lane l).state = .faulted → failNotice l h ∈ e'.raised
  runsOn : RunsOn (e.m.lane l).policy (failedAt a h) → FaultedWith v.time .drive (e.m.act b) (e'.m.act b) ∧
    actFaultNotice b .drive ∈ e'.raised ∧ e'.m.lane l = laneWithFailure (failedAt b (failedAt a h)) rest (e.m.lane l)
  stops : ¬ RunsOn (e.m.lane l).policy (failedAt a h) →
    e'.m.lane l = laneWithFailure (failedAt a h) rest (e.m.lane l) ∧
      ∃ y, Live y ∧ Quiet y ∧ y.cfg = (e.m.act b).cfg ∧ e'.m.act b = unlatchedRest y

/-- The turn of the higher actuator where the lane has run on. -/
theorem higher_faults {f f' : Event} {x : Actuator} (hne : b ≠ a) (hapart : Apart k l (fun c => c = a ∨ c = b) f')
    (hf : FailureReported v l a x h rest [actFaultNotice a .drive] f (latchOne v a f)) (hx : Quiet x)
    (hon : RunsOn (f.m.lane l).policy (failedAt a h)) (hl : Live (f.m.act b)) (ho : (f.m.act b).owner = .lane l)
    (hr : (f.m.lane l).state = .running) (hresult : ∃ r, (b, r) ∈ h.results)
    (hlane : f'.m.lane l = (latchOne v a f).m.lane l) (hacta : f'.m.act a = x)
    (hactb : f'.m.act b = (latchOne v a f).m.act b) :
    Apart k l (fun c => c = a ∨ c = b) (latchOne v b f') ∧ (latchOne v b f').m.act a = x ∧
      FaultedWith v.time .drive (f.m.act b) ((latchOne v b f').m.act b) ∧
      actFaultNotice b .drive ∈ (latchOne v b f').raised ∧
      (latchOne v b f').m.lane l = laneWithFailure (failedAt b (failedAt a h)) rest (f.m.lane l) ∧
      (((latchOne v b f').m.lane l).state = .faulted → failNotice l h ∈ (latchOne v b f').raised) := by
  have hb : f'.m.act b = f.m.act b := hactb.trans ((hf.act b hne).trans (if_pos hon))
  have hln : f'.m.lane l = { f.m.lane l with steps := failedAt a h :: rest } := by
    rw [hlane, hf.lane, laneWithFailure_of_runsOn rfl hon]
  have hrun : (f'.m.lane l).state = .running := by
    rw [hln]
    exact hr
  have hmem : ∃ r, (b, r) ∈ (failedAt a h).results := by
    obtain ⟨r, hr⟩ := hresult
    exact ⟨r, List.mem_map.mpr ⟨_, hr, if_neg hne⟩⟩
  obtain ⟨y, hy, hfailure⟩ := latchOne_reported (v := v) (c := b) (e := f') (h := failedAt a h) (rest := rest)
    (by rw [hb]; exact hl) (by rw [hb]; exact ho) hrun (by rw [hln]) hmem
  have hleft : (latchOne v b f').m.lane l = laneWithFailure (failedAt b (failedAt a h)) rest (f'.m.lane l) := hfailure.lane
  refine ⟨hapart.own hfailure, ?_, ?_, FailureReported.mem_notes hfailure (List.mem_singleton_self _), ?_, fun hfaulted => ?_⟩
  · have hkept : (latchOne v b f').m.act a = f'.m.act a :=
      (act_eased v b f' hne.symm Actuator.latchSet).quiet (by rw [hacta]; exact hx)
    exact hkept.trans hacta
  · rw [hfailure.self, ← hb]
    exact hy
  · rw [hleft, hln]
    exact laneWithFailure_steps (failedAt b (failedAt a h)) rest _ (f.m.lane l)
  · rw [hleft] at hfaulted
    have hfails : failNotice l (failedAt a h) ∈ (latchOne v b f').raised :=
      FailureReported.mem_failNotice hfailure (not_runsOn_of_faulted hrun hfaulted)
    exact hfails

theorem live_of_rest_or_moving {x : Actuator} (hm : x.managed = true) (h : x.state = .rest ∨ x.moving = true) : Live x := by
  refine ⟨hm, fun hs => ?_, fun hs => ?_⟩ <;> simp [Actuator.moving, hs] at h

theorem latchAll_two (hka : bankOf a = k) (hkb : bankOf b = k) (hlt : a < b) (hla : Live (e.m.act a))
    (hlb : Live (e.m.act b)) (hoa : (e.m.act a).owner = .lane l) (hob : (e.m.act b).owner = .lane l)
    (hr : (e.m.lane l).state = .running) (hs : (e.m.lane l).steps = h :: rest) (hra : ∃ r, (a, r) ∈ h.results)
    (hrb : ∃ r, (b, r) ∈ h.results) (hmv : ∃ mv ∈ h.moves, mv.act = b)
    (hst : (e.m.act b).state = .rest ∨ (e.m.act b).moving = true)
    (hp : (e.m.act b).moving = true ↔ (b, MoveResult.pending) ∈ h.results)
    (hapart : Apart k l (fun c => c = a ∨ c = b) e) : TwoLatched v l a b h rest e (latchAll v (bankActs k) e) := by
  obtain ⟨pre, mid, post, hsplit⟩ := bankActs_split_two hka hkb hlt
  have hnodup : (pre ++ a :: (mid ++ b :: post)).Nodup := hsplit ▸ bankActs_nodup k
  have hbank : ∀ c ∈ pre ++ a :: (mid ++ b :: post), bankOf c = k := fun c hc => mem_bankActs.mp (hsplit ▸ hc)
  have hne : b ≠ a := ne_of_gt hlt
  have hfree : ∀ c, c ∈ pre ∨ c ∈ mid ∨ c ∈ post → bankOf c = k ∧ ¬ (c = a ∨ c = b) := fun c hc => by
    refine ⟨hbank c ?_, ?_⟩
    · simp only [List.mem_append, List.mem_cons]
      obtain hc | hc | hc := hc <;> simp [hc]
    · simp only [List.nodup_append, List.nodup_cons, List.mem_append, List.mem_cons] at hnodup
      grind
  rw [hsplit, latchAll_append, latchAll_cons, latchAll_append, latchAll_cons]
  obtain ⟨hapart1, hlane1, hacts1⟩ := Apart.steps (v := v) pre e hapart fun c hc => hfree c (.inl hc)
  obtain ⟨f, hf⟩ : ∃ f, f = latchAll v pre e := ⟨_, rfl⟩
  rw [← hf] at hapart1 hlane1 hacts1 ⊢
  have hacta := hacts1 a (.inl rfl)
  have hactb := hacts1 b (.inr rfl)
  obtain ⟨x, hx, hfailure⟩ :=
    latchOne_reported (v := v) (by rwa [hacta]) (by rwa [hacta]) (by rwa [hlane1]) (by rwa [hlane1]) hra
  have hquiet : Quiet x := FaultedWith.quiet hx
  obtain ⟨hapart3, hlane3, hacts3⟩ := Apart.steps (v := v) mid _ (hapart1.own hfailure) fun c hc => hfree c (.inr (.inl hc))
  have hraised3 : ∀ n ∈ (latchOne v a f).raised, n ∈ (latchAll v mid (latchOne v a f)).raised := fun n hn =>
    mem_latchAll_raised mid _ hn
  obtain ⟨f', hf'⟩ : ∃ f', f' = latchAll v mid (latchOne v a f) := ⟨_, rfl⟩
  rw [← hf'] at hapart3 hlane3 hacts3 hraised3 ⊢
  have hself : f'.m.act a = x := (hacts3 a (.inl rfl)).trans hfailure.self
  have hlast : ∀ g : Event, Apart k l (fun c => c = a ∨ c = b) g →
      (latchAll v post g).m.lane l = g.m.lane l ∧ (latchAll v post g).m.act a = g.m.act a ∧
        (latchAll v post g).m.act b = g.m.act b := fun g hg => by
    obtain ⟨_, hlane, hacts⟩ := Apart.steps (v := v) post g hg fun c hc => hfree c (.inr (.inr hc))
    exact ⟨hlane, hacts a (.inl rfl), hacts b (.inr rfl)⟩
  have hnotice : actFaultNotice a .drive ∈ (latchAll v post (latchOne v b f')).raised :=
    mem_latchAll_raised post _ (mem_act_raised v b f' (hraised3 _
      (FailureReported.mem_notes hfailure (List.mem_singleton_self _))) Actuator.latchSet)
  rw [hacta] at hx
  by_cases hon : RunsOn (f.m.lane l).policy (failedAt a h)
  case pos =>
    obtain ⟨hapart4, hacta4, hfaulted, hnoticeb, hlane4, hfault⟩ := higher_faults hne hapart3 hfailure hquiet hon
      (by rwa [hactb]) (by rwa [hactb]) (by rwa [hlane1]) hrb hlane3 hself (hacts3 b (.inr rfl))
    obtain ⟨hlane5, hacta5, hactb5⟩ := hlast _ hapart4
    rw [hactb] at hfaulted
    rw [hlane1] at hlane4 hon
    refine { lower := ?_, notice := hnotice, laneFault := fun h => ?_, runsOn := fun _ => ⟨?_, ?_, ?_⟩,
             stops := fun h => absurd hon h }
    · rw [hacta5, hacta4]
      exact hx
    · rw [hlane5] at h
      exact mem_latchAll_raised post _ (hfault h)
    · rw [hactb5]
      exact hfaulted
    · exact mem_latchAll_raised post _ hnoticeb
    · exact hlane5.trans hlane4
  case neg =>
    have hy : f'.m.act b = abortedAct (v.view b) l (failedAt a h) b (e.m.act b) := by
      rw [hacts3 b (.inr rfl), hfailure.act b hne, if_neg hon, hactb]
    have hpending : (e.m.act b).moving = true ↔ (b, MoveResult.pending) ∈ (failedAt a h).results := by
      rw [hp, pending_failedAt_iff]
      exact (and_iff_right hne).symm
    obtain ⟨hrest, howner, hcfg⟩ := abortedAct_rests (g := failedAt a h) hmv hob hst hpending (v.view b)
    rw [← hy] at hrest howner hcfg
    have hliveb : Live (f'.m.act b) := by
      refine ⟨?_, by rw [hrest]; exact ActState.noConfusion, by rw [hrest]; exact ActState.noConfusion⟩
      rw [Actuator.managed, hcfg]
      exact hlb.managed
    have hquietb : Quiet (f'.m.act b) := ⟨by simp [Actuator.moving, hrest], howner⟩
    have hrests := latchOne_rests (v := v) hliveb hquietb
    have hapart4 : Apart k l (fun c => c = a ∨ c = b) (latchOne v b f') := hapart3.of_lanes fun j _ => by rw [hrests]; rfl
    obtain ⟨hlane5, hacta5, hactb5⟩ := hlast _ hapart4
    have hlane4 : (latchOne v b f').m.lane l = laneWithFailure (failedAt a h) rest (e.m.lane l) := by
      rw [hrests, ← hlane1, ← hfailure.lane]
      exact hlane3
    refine { lower := ?_, notice := hnotice, laneFault := fun _ => ?_, runsOn := fun h => absurd (hlane1 ▸ h) hon,
             stops := fun _ => ⟨hlane5.trans hlane4, _, hliveb, hquietb, hcfg, ?_⟩ }
    · rw [hacta5, hrests, act_setAct_ne _ _ _ _ hne.symm, hself]
      exact hx
    · exact mem_latchAll_raised post _ (mem_act_raised v b f' (hraised3 _ (FailureReported.mem_failNotice hfailure hon))
        Actuator.latchSet)
    · rw [hactb5, hrests]
      exact act_setAct_self ..

end

/-! ## DRVFLT_FILTER_EXPIRY (R115, R116, R118) -/

section

variable {s : State} {k : BankIx}

theorem exec_drvfltFilterExpiry (hop : Operating s) (ht : (s.drvflt.get k).timer = some 0) :
    exec (.drvfltFilterExpiry k) s = .next (s.drvfltLevel k).close := by
  have hx : exec (.drvfltFilterExpiry k) s = .next (s.live (State.drvfltExpiry k)) := rfl
  rw [hx, live_operating _ hop]
  exact congrArg _ (if_pos (by rw [ht]; rfl))

theorem drvfltLevel_low (hp : (s.drvflt.get k).pin = false) (ha : (s.drvflt.get k).active = false) : s.drvfltLevel k =
    State.driverFault k { s with drvflt := setVec s.drvflt k { pin := false, active := true, timer := none } } := by
  have hexpire : (s.drvflt.get k).expire = { pin := false, active := true, timer := none } := by
    simp [FixedLine.expire, hp]
  unfold State.drvfltLevel
  dsimp only
  rw [hexpire, ha]
  rfl

theorem drvfltLevel_high (hp : (s.drvflt.get k).pin = true) : s.drvfltLevel k =
    ({ s with drvflt := setVec s.drvflt k { pin := true, active := false, timer := none } } : State).body := by
  have hexpire : (s.drvflt.get k).expire = { pin := true, active := false, timer := none } := by
    simp [FixedLine.expire, hp]
  unfold State.drvfltLevel
  dsimp only
  rw [hexpire]
  rfl

/-- The DRIVE notice of a bank. -/
def driveNote (k : BankIx) : Raised := { cls := .drive, source := some k.val, detail := 0, tag := none }

/-- The part with the latch of the bank set, its actuators still to be told. -/
def latched (k : BankIx) (s : State) : State :=
  { s with
    latches := setVec s.latches k true, drvflt := setVec s.drvflt k { pin := false, active := true, timer := none } }

/-- The heart as the setting of the latch leaves it. -/
def latchEvent (k : BankIx) (s : State) : Event := latchAll (latched k s).env (bankActs k) s.event

theorem drvflt_yields (hop : Operating s) (ht : (s.drvflt.get k).timer = some 0) (hp : (s.drvflt.get k).pin = false)
    (ha : (s.drvflt.get k).active = false) (hl : s.latches.get k = false) :
    Yields (.drvfltFilterExpiry k) s { latched k s with motion := (latchEvent k s).m }
      ((latchEvent k s).raised ++ [driveNote k]) := by
  have hbody : s.drvfltLevel k = { s := latched k s, e := (latchEvent k s).raise (driveNote k) } :=
    (drvfltLevel_low hp ha).trans (if_neg (by simp [hl]))
  have hx := exec_drvfltFilterExpiry hop ht
  rw [hbody] at hx
  exact Yields.of_close _ hx (latchAll_started ..) rfl rfl

theorem drvflt_again (hop : Operating s) (ht : (s.drvflt.get k).timer = some 0) (hp : (s.drvflt.get k).pin = false)
    (ha : (s.drvflt.get k).active = false) (hl : s.latches.get k = true) : Yields (.drvfltFilterExpiry k) s
      { s with drvflt := setVec s.drvflt k { pin := false, active := true, timer := none } } [driveNote k] := by
  have hx := exec_drvfltFilterExpiry hop ht
  rw [drvfltLevel_low hp ha, State.driverFault] at hx
  exact Yields.of_close _ (hx.trans (congrArg (fun b : Body => Host.Outcome.next b.close) (if_pos hl))) rfl rfl rfl

end

/-- Settles O25: the actuators of the bank are told of the latch one after the other, lowest index first. -/
theorem driverFaultSetsTheLatch : Obligations.DriverFaultSetsTheLatch := by
  refine fun s k hop ht => ⟨fun hp ha hlatch => ⟨_, _, drvflt_yields hop ht hp ha hlatch, rfl,
    List.mem_append_right _ (List.mem_singleton_self _), fun a hk hm hoff => ?_, fun a hk hm hst ho => ?_,
    fun hrun a hk hm hoff hf hbusy => ?_, fun l h rest a hr hs hk hm hoff hf ho hresult howners hheads => ?_,
    fun l h rest a b hr hs hlt hboth hp howners hheads => ?_, fun a hk hst ho => latchAll_skipped hk hst ho⟩,
    drvflt_again hop ht, fun hp => ?_⟩
  · by_cases hf : (s.motion.act a).state = .faulted
    · exact .inr hf
    · obtain ⟨hmoving, howner⟩ := latchAll_quiet (v := (latched k s).env) (e := s.event) hk ⟨hm, hoff, hf⟩
      exact .inl ⟨hmoving, howner⟩
  · have hlive : Live (s.event.m.act a) := ⟨hm, by simp [State.event, hst], by simp [State.event, hst]⟩
    have hrests := latchAll_rests (v := (latched k s).env) (e := s.event) hk hlive
      ⟨by simp [State.event, Actuator.moving, hst], ho⟩
    obtain ⟨la, lb, p, hfields⟩ := unlatchedRest_fields (s.motion.act a)
    obtain ⟨hlineA, hlineB, hpulse⟩ := unlatchedRest_coils hm
    have hact : (latchEvent k s).m.act a = unlatchedRest (s.motion.act a) := hrests
    rw [show ({ latched k s with motion := (latchEvent k s).m } : State).motion.act a = _ from hact]
    refine ⟨?_, ?_, ?_, hlineA, hlineB, hpulse⟩ <;> rw [hfields]
    exact hst
  · obtain ⟨hfaulted, hnotice⟩ :=
      latchAll_faults (v := (latched k s).env) (e := s.event) hk hrun ⟨hm, hoff, hf⟩ hbusy
    exact ⟨hfaulted, List.mem_append_left _ hnotice⟩
  · have hapart : Apart k l (· = a) s.event :=
      ⟨fun c hc hne => howners c hne hc, fun j g gs hj hrj hsj => hheads j g gs hj hrj hsj⟩
    obtain ⟨hfaulted, hnotice, hlane, hfault⟩ :=
      latchAll_one (v := (latched k s).env) (e := s.event) hk ⟨hm, hoff, hf⟩ ho hr hs hresult hapart
    exact ⟨hfaulted, List.mem_append_left _ hnotice, hlane, fun h => List.mem_append_left _ (hfault h)⟩
  · obtain ⟨hka, hma, hsta, hoa, hra, _⟩ := hboth a (.inl rfl)
    obtain ⟨hkb, hmb, hstb, hob, hrb, hmvb⟩ := hboth b (.inr rfl)
    have hapart : Apart k l (fun c => c = a ∨ c = b) s.event := by
      refine ⟨fun c hc hne => howners c (fun h => hne (.inl h)) (fun h => hne (.inr h)) hc, fun j g gs hj hrj hsj => ?_⟩
      obtain ⟨hresults, hmoves⟩ := hheads j g gs hj hrj hsj
      exact ⟨fun p hp => not_or.mpr (hresults p hp), fun mv hmv => not_or.mpr (hmoves mv hmv)⟩
    obtain ⟨hlower, hnotice, hfault, hruns, hstops⟩ := latchAll_two (v := (latched k s).env) (e := s.event) hka hkb hlt
      (live_of_rest_or_moving hma hsta) (live_of_rest_or_moving hmb hstb) hoa hob hr hs hra hrb hmvb hstb hp hapart
    refine ⟨hlower, List.mem_append_left _ hnotice, fun h => List.mem_append_left _ (hfault h), fun hon => ?_, fun hon => ?_⟩
    · obtain ⟨hfaulted, hnoticeb, hlane⟩ := hruns hon
      exact ⟨hfaulted, List.mem_append_left _ hnoticeb, hlane⟩
    · obtain ⟨hlane, y, hlive, hquiet, hcfg, hact⟩ := hstops hon
      obtain ⟨la, lb, p, hfields⟩ := unlatchedRest_fields y
      obtain ⟨hlineA, hlineB, hpulse⟩ := unlatchedRest_coils hlive.managed
      have hactb : ({ latched k s with motion := (latchEvent k s).m } : State).motion.act b = unlatchedRest y := hact
      rw [hactb]
      refine ⟨hlane, ?_, ?_, ?_, ?_, hlineA, fun hd => hlineB (by rw [hcfg]; exact hd), hpulse⟩ <;> rw [hfields]
      · exact hlive.rest hquiet.moving
      · exact hquiet.owner
  · have hx := exec_drvfltFilterExpiry hop ht
    rw [drvfltLevel_high hp] at hx
    exact Yields.of_body _ hx

end Sys2Proof.Proofs.DriverFault
end
